-- ==== Sys2Proof/Word.lean ====
section
/-! DEFINITION. The word types of the block: the unsigned widths of 00_scope.md R7 and R8. -/

namespace Sys2Proof

/-- `u8` of 00_scope.md R8: a byte of a queue, of the latch or of a chip register. -/
abbrev Byte := BitVec 8

/-- `u32` of 00_scope.md R8. -/
abbrev U32 := BitVec 32

/-- `u64` of 00_scope.md R8. -/
abbrev U64 := BitVec 64

end Sys2Proof
end

