-- ==== Sys2Proof/Config.lean ====
section
/-! DEFINITION. The build parameters of the block (00_scope.md R6), the signal map (40_bus_serializer.md
R131 to R133) and the values the spec leaves free. -/

namespace Sys2Proof

/-- The six named control signals of the chip bus (40_bus_serializer.md R131). -/
inductive Signal where
  | psgCs | fmCs | wr | a0 | a1 | ic
deriving DecidableEq, Repr

/-- `Cfg.REV` (40_bus_serializer.md R132): which serial byte is the control byte, and the bit of the
control byte that carries each signal. -/
structure RevMap where
  /-- `ctrlIndex`; `dataIndex` is `1 - ctrlIndex`. -/
  ctrlIndex : Fin 2
  psgCs : Fin 8
  fmCs : Fin 8
  wr : Fin 8
  a0 : Fin 8
  a1 : Fin 8
  ic : Fin 8
deriving DecidableEq, Repr

/-- `REV.bit(S)` of 40_bus_serializer.md R132. -/
def RevMap.bit (r : RevMap) : Signal → Fin 8
  | .psgCs => r.psgCs
  | .fmCs => r.fmCs
  | .wr => r.wr
  | .a0 => r.a0
  | .a1 => r.a1
  | .ic => r.ic

/-- "six distinct bits 0..7" (00_scope.md R6, 40_bus_serializer.md R132). -/
abbrev RevMap.Wf (r : RevMap) : Prop :=
  [r.psgCs, r.fmCs, r.wr, r.a0, r.a1, r.ic].Nodup

/-- `REV_DEFAULT` (40_bus_serializer.md R133). -/
def RevMap.default : RevMap :=
  { ctrlIndex := 0, psgCs := 0, ic := 1, wr := 2, a0 := 3, a1 := 4, fmCs := 5 }

/-- The configuration record `Cfg` of 00_scope.md R6. `sampleHz` is a parameter of the build like the others
(92_eei_decisions.md D49, 93_implementation_defined.md, log 1). The four `t` fields are the minimum durations in
microseconds; no rule's result depends on them (70_reset_and_hazards.md R372). -/
structure Cfg where
  rev : RevMap
  clockHz : Nat
  sampleHz : Nat
  cmdCap : Nat
  pcmCap : Nat
  nSlots : Nat
  slotCap : Nat
  tPsgPulse : Nat
  tPsgSettle : Nat
  tFmSettle : Nat
  tReset : Nat
deriving DecidableEq, Repr

/-- `CPS = CLOCK_HZ div SAMPLE_HZ`, truncating (00_scope.md R6, 46_scheduler.md R292). -/
def Cfg.cps (c : Cfg) : Nat := c.clockHz / c.sampleHz

/-- The constraints of the table of 00_scope.md R6. -/
abbrev Cfg.Wf (c : Cfg) : Prop :=
  c.rev.Wf ∧ 1 ≤ c.clockHz ∧ c.clockHz < 2 ^ 32 ∧ 1 ≤ c.sampleHz ∧ 1 ≤ c.cps ∧
    11 ≤ c.cmdCap ∧ 1 ≤ c.pcmCap ∧ 1 ≤ c.slotCap

/-- The column "default" of the table of 00_scope.md R6. -/
def Cfg.default : Cfg :=
  { rev := RevMap.default, clockHz := 240000000, sampleHz := 44100, cmdCap := 4096, pcmCap := 4096, nSlots := 3,
    slotCap := 1024, tPsgPulse := 20, tPsgSettle := 5, tFmSettle := 5, tReset := 1000 }

/-- FREE VALUE (log 2): how many cycles of the hardware counter pass between tick `n` and the next one,
where the agenda does not say. 93_implementation_defined.md U1: the sequence of `now` values is an input. -/
opaque Config.elapsedCycles : Nat → Nat

/-- FREE VALUE (log 7): `CYC + delta` where the sum does not fit 64 bits. 46_scheduler.md R291 treats
`CYC` "as never wrapping" and states no result there. -/
opaque Config.cycOverflow : U64 → U32 → U64

end Sys2Proof
end

