-- ==== Sys2Proof/Machine/State.lean ====
section
/-! DEFINITION. The state of the block (10_state.md), its inputs held as plain data, the reasons a step can stop,
and the state after reset. -/

namespace Sys2Proof.Machine

/-- `LATCH`: the 2-byte latched output register (10_state.md R21). -/
structure Latch where
  ctrl : Byte
  data : Byte
deriving DecidableEq, Repr

/-- One frame of `BUS`: a pair `(ctrl, data)` of bytes (10_state.md R22). -/
structure Frame where
  ctrl : Byte
  data : Byte
deriving DecidableEq, Repr

/-- The serializer's state: `LATCH` and the append-only output `BUS` (10_state.md R21, R22). -/
structure Ser where
  latch : Latch
  bus : List Frame
deriving DecidableEq, Repr

/-- The mix caches, the general registers (10_state.md R23 to R26). -/
structure MixCaches where
  fmPan : Vector Byte 6
  fmAlg : Vector (BitVec 3) 6
  psgAtt : Vector Byte 4
deriving DecidableEq, Repr

/-- The hidden decoder state (10_state.md R27 to R30). `psgType` is true for 1, attenuation. -/
structure Tracking where
  psgCh : BitVec 2
  psgType : Bool
  psgLow : Byte
  psgLowV : Bool
  dacEn : Bool
  dacAcc : U32
  dacCnt : U32
deriving DecidableEq, Repr

/-- The mixing controls, written by HOST only (10_state.md R33). -/
structure Controls where
  fmMask : BitVec 7
  psgMask : BitVec 4
  forceMono : Bool
  trimEn : Bool
  freqFix : Bool
deriving DecidableEq, Repr

/-- The clock registers (10_state.md R34 to R39). -/
structure Clock where
  lastHw : U32
  cyc : U64
  sample : U32
  nextDue : U32
  fwSeen : Bool
  paused : U32
deriving DecidableEq, Repr

/-- The five request signals (10_state.md R40). -/
structure Req where
  start : Bool
  updMute : Bool
  reset : Bool
  stop : Bool
  resume : Bool
deriving DecidableEq, Repr

/-- The stored status bits 0 to 4 (10_state.md R41); bits 5 and 6 are derived from the queues. -/
structure Status where
  running : Bool
  finished : Bool
  resetAck : Bool
  cmdUnderrun : Bool
  pcmUnderrun : Bool
deriving DecidableEq, Repr

/-- The output pair `FAULT` (10_state.md R43). -/
structure FaultOut where
  code : Byte
  info : Byte
deriving DecidableEq, Repr

/-- `LengthMode` (10_state.md R47). -/
inductive LengthMode where
  | byLength
  | infinite
deriving DecidableEq, Repr

/-- `ACT`, the active playback state (10_state.md R45). -/
structure ActiveStream where
  active : Bool
  slot : Nat
  rate : U32
  port : Byte
  reg : Byte
  mode : LengthMode
  len : U32
  last : U64
deriving DecidableEq, Repr

/-- `DacStreamSlot` (10_state.md R46). -/
structure Slot where
  sequence : U32
  free : Bool
  queue : List Byte
  sampleRateHz : U32
  chipPort : Byte
  chipRegister : Byte
  lengthMode : LengthMode
  declaredLength : U32
  playedCount : U32
deriving DecidableEq, Repr

/-- One record of the activity table (10_state.md R49): bit 0, bit 1 and bit 2. -/
structure Activity where
  kon : Bool
  param : Bool
  dac : Bool
deriving DecidableEq, Repr

/-- One entry of `LOG` (10_state.md R50, 60_exceptions.md R318). -/
structure LogEntry where
  code : Byte
  info : U32
deriving DecidableEq, Repr

/-- The names of the request bits (10_state.md R40). -/
inductive Request where
  | start | updMute | reset | stop | resume
deriving DecidableEq, Repr

/-- The flags of an activity record (10_state.md R49). -/
inductive ActivityFlag where
  | kon | param | dac
deriving DecidableEq, Repr

/-- The static fields LOADER writes into a free slot (44_cmd_dac_stream.md R241). -/
structure SlotFields where
  sequence : U32
  sampleRateHz : U32
  chipPort : Byte
  chipRegister : Byte
  lengthMode : LengthMode
  declaredLength : U32
  playedCount : U32
deriving DecidableEq, Repr

/-- One step of LOADER or HOST between two ticks (60_exceptions.md R335, 20_memory.md R78). -/
inductive AgentAction where
  /-- LOADER: `Push(CMDQ, b)` (20_memory.md R75). -/
  | pushCmd (b : Byte)
  /-- LOADER: `Push(PCMQ, b)`. -/
  | pushPcm (b : Byte)
  /-- LOADER: `Push(SLOT[k].queue, b)`. -/
  | pushSlot (k : Nat) (b : Byte)
  /-- LOADER: `Flush(CMDQ)`, only while not running (20_memory.md R96). -/
  | flushCmd
  /-- LOADER: `Flush(PCMQ)`, only while not running (20_memory.md R96). -/
  | flushPcm
  /-- LOADER: `Flush(SLOT[k].queue)` of a slot it owns (20_memory.md R96, 44_cmd_dac_stream.md R241). -/
  | flushSlot (k : Nat)
  /-- LOADER: write the static fields of a free slot (44_cmd_dac_stream.md R241). -/
  | writeSlot (k : Nat) (f : SlotFields)
  /-- LOADER: `SLOT[k].free <- 0`, the last step of an allocation (44_cmd_dac_stream.md R241). -/
  | publishSlot (k : Nat)
  /-- LOADER: re-initialise the pool, only while not running (44_cmd_dac_stream.md R241). -/
  | reinitPool
  /-- HOST: set a request bit (10_state.md R40). -/
  | setReq (r : Request)
  /-- HOST: withdraw a request bit (60_exceptions.md R328). -/
  | withdrawReq (r : Request)
  /-- HOST: write `FMMASK` (10_state.md R33). -/
  | setFmMask (m : BitVec 7)
  /-- HOST: write `PSGMASK`. -/
  | setPsgMask (m : BitVec 4)
  /-- HOST: write `FORCEMONO`. -/
  | setForceMono (b : Bool)
  /-- HOST: write `TRIMEN`. -/
  | setTrimEn (b : Bool)
  /-- HOST: write `FREQFIX`. -/
  | setFreqFix (b : Bool)
  /-- HOST: clear `STATUS.RESET_ACK` (10_state.md R41). -/
  | clearResetAck
  /-- HOST: clear one activity bit (10_state.md R49). -/
  | clearActivity (v : Fin 10) (f : ActivityFlag)
  /-- HOST: zero `DACACC` (10_state.md R30). -/
  | zeroDacAcc
  /-- HOST: zero `DACCNT` (10_state.md R30). -/
  | zeroDacCnt
deriving DecidableEq, Repr

/-- What happens between one tick and the next: how many cycles the hardware counter advances, and what LOADER
and HOST do, in order (20_memory.md R78, 10_state.md R32). -/
structure Interval where
  elapsed : Nat
  actions : List AgentAction
deriving DecidableEq, Repr

/-- The state of CBD (10_state.md R20), with the build parameters, the launch input and the inputs to come held
beside it as plain data (logs 1, 2, 3, 5). -/
structure State where
  /-- `Cfg` (00_scope.md R6), never written. -/
  cfg : Cfg
  /-- `SETUP_OK` (60_exceptions.md R316), never written. -/
  setupOk : Bool
  /-- The reading of `HWCC` the next tick takes as `now` (10_state.md R32, 46_scheduler.md R281). -/
  hwcc : U32
  /-- The model's own: how many ticks have been taken, the index of the next free elapsed time. -/
  ticks : Nat
  /-- The model's own: what the other agents do in the intervals to come. -/
  agenda : List Interval
  ser : Ser
  mix : MixCaches
  trk : Tracking
  cmdPc : U32
  ctl : Controls
  clk : Clock
  req : Req
  status : Status
  /-- `STOPPED` (10_state.md R42). -/
  stopped : Bool
  fault : FaultOut
  /-- `SEQ` (10_state.md R44). -/
  seq : U32
  /-- `LASTSEQ` (10_state.md R44). -/
  lastSeq : U32
  act : ActiveStream
  /-- `SLOT[0..N_SLOTS-1]`. -/
  slots : List Slot
  /-- `CMDQ`, oldest byte first (10_state.md R48). -/
  cmdq : List Byte
  /-- `PCMQ`, oldest byte first. -/
  pcmq : List Byte
  activity : Vector Activity 10
  log : List LogEntry
deriving DecidableEq, Repr

/-- Why the block stops. -/
inductive Fault where
  /-- Raised by `step` when `SETUP_OK` is false: error E5, "if false the block never ticks"
  (60_exceptions.md R316). Safe: the block makes no progress either. -/
  | setupFailure
deriving DecidableEq, Repr

/-- Why the model gives no next state. -/
inductive Refusal where
  /-- Raised by an arm of `exec` whose instruction has no meaning; no arm is left so. Safe. -/
  | notModelled (mnemonic : String)
  /-- Raised by the interval after a tick when LOADER flushes CMDQ or PCMQ while `RUNNING = 1`
  (20_memory.md R96, 93_implementation_defined.md U4, log 4). Safe: the spec defines no step there. -/
  | flushWhileRunning
  /-- Raised by the interval after a tick when LOADER writes, flushes or publishes a slot that is not free
  (44_cmd_dac_stream.md R241, U4, log 4). Safe: the spec defines no step there. -/
  | slotNotOwned
  /-- Raised by the interval after a tick when LOADER re-initialises the pool while running or after raising Start
  (44_cmd_dac_stream.md R241, U4, log 4). Safe: the spec defines no step there. -/
  | reinitNotAllowed
  /-- Raised by the interval after a tick when LOADER names a slot that the pool does not have (10_state.md R46,
  log 4). Safe: there is no such slot. -/
  | noSuchSlot
deriving DecidableEq, Repr

/-- A slot at power-on: free, everything else 0, queue empty (10_state.md R46). -/
def Slot.powerOn : Slot :=
  { sequence := 0, free := true, queue := [], sampleRateHz := 0, chipPort := 0, chipRegister := 0,
    lengthMode := .byLength, declaredLength := 0, playedCount := 0 }

/-- `ACT` at power-on and after Start (10_state.md R45). -/
def ActiveStream.idle : ActiveStream :=
  { active := false, slot := 0, rate := 0, port := 0, reg := 0, mode := .byLength, len := 0, last := 0 }

/-- An activity record with every bit 0 (10_state.md R49). -/
def Activity.none : Activity := { kon := false, param := false, dac := false }

/-- The mix caches at power-on and after Start (10_state.md R52, 60_exceptions.md R322). -/
def MixCaches.initial : MixCaches :=
  { fmPan := #v[0xC0, 0xC0, 0xC0, 0xC0, 0xC0, 0xC0], fmAlg := #v[0, 0, 0, 0, 0, 0],
    psgAtt := #v[0x9F, 0xBF, 0xDF, 0xFF] }

/-- The hidden decoder state at power-on and after Start (10_state.md R52, 60_exceptions.md R322). -/
def Tracking.initial : Tracking :=
  { psgCh := 0, psgType := false, psgLow := 0, psgLowV := false, dacEn := false, dacAcc := 0, dacCnt := 0 }

/-- No request pending. -/
def Req.none : Req := { start := false, updMute := false, reset := false, stop := false, resume := false }

/-- The machine right after reset, the booted state: the power-on column of 10_state.md R52 after `Setup()` of
70_reset_and_hazards.md R361 has returned true, under the default configuration of 00_scope.md R6 (log 1).
`Laws/Ops.lean` proves that it is what `setup` makes. -/
def State.reset : State :=
  { cfg := Cfg.default
    setupOk := true
    hwcc := 0
    ticks := 0
    agenda := []
    ser :=
      { latch := { ctrl := 0x27, data := 0xFF }
        bus := [⟨0x27, 0x00⟩, ⟨0x25, 0x00⟩, ⟨0x27, 0x00⟩, ⟨0x22, 0xF9⟩, ⟨0x26, 0xF9⟩, ⟨0x27, 0xF9⟩,
          ⟨0x22, 0xFD⟩, ⟨0x26, 0xFD⟩, ⟨0x27, 0xFD⟩, ⟨0x22, 0xFB⟩, ⟨0x26, 0xFB⟩, ⟨0x27, 0xFB⟩,
          ⟨0x22, 0xFF⟩, ⟨0x26, 0xFF⟩, ⟨0x27, 0xFF⟩] }
    mix := MixCaches.initial
    trk := Tracking.initial
    cmdPc := 0
    ctl := { fmMask := 0x7F, psgMask := 0xF, forceMono := false, trimEn := false, freqFix := false }
    clk := { lastHw := 0, cyc := 0, sample := 0, nextDue := 0, fwSeen := false, paused := 0 }
    req := Req.none
    status :=
      { running := false, finished := false, resetAck := false, cmdUnderrun := false, pcmUnderrun := false }
    stopped := false
    fault := { code := 0, info := 0 }
    seq := 0
    lastSeq := 0
    act := ActiveStream.idle
    slots := [Slot.powerOn, Slot.powerOn, Slot.powerOn]
    cmdq := []
    pcmq := []
    activity := #v[Activity.none, Activity.none, Activity.none, Activity.none, Activity.none, Activity.none,
      Activity.none, Activity.none, Activity.none, Activity.none]
    log := [] }

end Sys2Proof.Machine
end

