-- ==== Sys2Proof/Machine/Operands.lean ====
section
/-! DEFINITION. The operand forms: the fields of a PSG byte (20_memory.md R88), the classes and addresses of FM
registers (R84 to R87), the bit reversal of the PSG data lines (R80) and the wait amounts (30_encoding.md R106). -/

namespace Sys2Proof.Machine

/-- `bitrev8(v)`, the byte whose bit i is `v[7-i]` (00_scope.md R8). -/
def bitrev8 (v : Byte) : Byte := BitVec.reverse v

/-- `v[7]`: is a PSG byte a latch byte (20_memory.md R88)? -/
def psgIsLatch (v : Byte) : Bool := v.getLsbD 7

/-- `v[6:5]`, the channel of a PSG latch byte. -/
def psgChannel (v : Byte) : BitVec 2 := v.extractLsb' 5 2

/-- `v[4]`, the type of a PSG latch byte: true = attenuation. -/
def psgIsAtt (v : Byte) : Bool := v.getLsbD 4

/-- `v[3:0]`, the attenuation or low data bits of a PSG byte. -/
def psgNibble (v : Byte) : BitVec 4 := v.extractLsb' 0 4

/-- The attenuation of channel `c` in latch form, `0b1 cc 1 aaaa` (10_state.md R25, 42_cmd_chip_writes.md R185). -/
def psgAttByte (c : BitVec 2) (a : BitVec 4) : Byte := 0x90 ||| (c.setWidth 8 <<< 5) ||| a.setWidth 8

/-- The silence command of channel `c`, `0x9F | (c << 5)` (40_bus_serializer.md R142). -/
def psgSilence (c : BitVec 2) : Byte := 0x9F ||| (c.setWidth 8 <<< 5)

/-- The classes of FM register writes, with the channel a per-channel register belongs to (20_memory.md R84). -/
inductive FmClass where
  | pan (i : Fin 6)
  | alg (i : Fin 6)
  | keyOn
  | dacData
  | dacEn
  | chParam (i : Fin 6)
  | other
deriving DecidableEq, Repr

/-- `3*port + lo`, the FM channel index of 20_memory.md R84, defined when `lo != 3`. -/
def fmIndex (port : Bool) (lo : BitVec 2) : Option (Fin 6) :=
  match port, lo.toNat with
  | false, 0 => some 0
  | false, 1 => some 1
  | false, 2 => some 2
  | true, 0 => some 3
  | true, 1 => some 4
  | true, 2 => some 5
  | _, _ => none

/-- `reg & 3`, the low bits that name a per-channel register's channel within its port (20_memory.md R84). -/
def regLow (reg : Byte) : BitVec 2 := reg.extractLsb' 0 2

/-- `Class(port, reg)` of 20_memory.md R84 and 42_cmd_chip_writes.md R190. -/
def fmClass (port : Bool) (reg : Byte) : FmClass :=
  if 0xB4 ≤ reg ∧ reg ≤ 0xB6 then
    match fmIndex port ((reg - 0xB4).setWidth 2) with
    | some i => .pan i
    | none => .other
  else if 0xB0 ≤ reg ∧ reg ≤ 0xB2 then
    match fmIndex port ((reg - 0xB0).setWidth 2) with
    | some i => .alg i
    | none => .other
  else if port = false ∧ reg = 0x28 then .keyOn
  else if port = false ∧ reg = 0x2A then .dacData
  else if port = false ∧ reg = 0x2B then .dacEn
  else if 0x30 ≤ reg ∧ reg ≤ 0xAF then
    match fmIndex port (regLow reg) with
    | some i => .chParam i
    | none => .other
  else .other

/-- A port number as the byte `WriteFmRegister` takes (40_bus_serializer.md R140). -/
def portByte (port : Bool) : Byte := if port then 1 else 0

/-- The channel a key-on value selects: `s` in 0..2 names index s, 4..6 names s - 1, 3 and 7 name none
(20_memory.md R86). -/
def keyOnChannel (val : Byte) : Option (Fin 6) :=
  match (val.extractLsb' 0 3 : BitVec 3).toNat with
  | 0 => some 0
  | 1 => some 1
  | 2 => some 2
  | 4 => some 3
  | 5 => some 4
  | 6 => some 5
  | _ => none

/-- `val[7:4]`, the operator key bits of a key-on value (20_memory.md R86). -/
def keyOnOperators (val : Byte) : BitVec 4 := val.extractLsb' 4 4

/-- The port of `FmPanAddr(i)`: `i div 3` (41_mix_engine.md R165). -/
def fmPanPort (i : Fin 6) : Byte := BitVec.ofNat 8 (i.val / 3)

/-- The register of `FmPanAddr(i)`: `0xB4 + (i mod 3)` (41_mix_engine.md R165). -/
def fmPanReg (i : Fin 6) : Byte := 0xB4 + BitVec.ofNat 8 (i.val % 3)

/-- Voice of FM index `i` in the activity table (10_state.md R49). -/
def fmVoice (i : Fin 6) : Fin 10 := ⟨i.val, by omega⟩

/-- Voice of PSG channel `c` in the activity table, `6 + c` (10_state.md R49). -/
def psgVoice (c : BitVec 2) : Fin 10 := ⟨6 + c.toNat, by have := c.isLt; omega⟩

/-- The constant of `WAIT60` (30_encoding.md R106). -/
def wait60Amount : U32 := 735

/-- The constant of `WAIT50` (30_encoding.md R106). -/
def wait50Amount : U32 := 882

/-- The absolute deviation of a DAC byte from 0x80, 0 to 128 (42_cmd_chip_writes.md R199). -/
def dacDeviation (val : Byte) : U32 :=
  if 0x80 ≤ val then (val - 0x80).setWidth 32 else (0x80 - val).setWidth 32

end Sys2Proof.Machine
end

