-- ==== Sys2Proof/Machine/Ops.lean ====
section
/-! DEFINITION. The named operations: queues (20_memory.md §2), the serializer and its primitives
(40_bus_serializer.md), register accessors, the log and the ONE raising of errors (60_exceptions.md R311, R318),
and the setup routine (70_reset_and_hazards.md R361). -/

namespace Sys2Proof.Machine

open Host

/-! ### Queues -/

/-- `Avail(q)` (20_memory.md R72). -/
def Queue.avail (q : List Byte) : Nat := q.length

/-- `Peek(q)`: the oldest byte (20_memory.md R73); on an empty queue there is none, and no rule asks. -/
def Queue.peek (q : List Byte) : Option Byte := q.head?

/-- `Pop(q)`: the oldest byte and the queue without it (20_memory.md R74); on an empty queue there is none, and no
rule asks. -/
def Queue.pop (q : List Byte) : Option (Byte × List Byte) :=
  match q with
  | [] => none
  | b :: rest => some (b, rest)

/-- `Push(q, b)` on a queue of capacity `cap`: append and true, or no change and false (20_memory.md R75). -/
def Queue.push (cap : Nat) (q : List Byte) (b : Byte) : List Byte × Bool :=
  if Queue.avail q < cap then (q ++ [b], true) else (q, false)

/-- `Flush(q)` (20_memory.md R96). -/
def Queue.flush (_q : List Byte) : List Byte := []

/-- `HalfEmpty(q) = (Avail(q) <= CAP(q) div 2)` (20_memory.md R76). -/
def Queue.halfEmpty (cap : Nat) (q : List Byte) : Bool := decide (Queue.avail q ≤ cap / 2)

/-- `Pop(CMDQ)` as CBD performs it: `CMDPC <- CMDPC +_32 1` with every byte (20_memory.md R74). -/
def popCmd (s : State) : State :=
  match Queue.pop s.cmdq with
  | some (_, rest) => { s with cmdq := rest, cmdPc := s.cmdPc + 1 }
  | none => s

/-- `n` times `Pop(CMDQ)`: the pops of one fetched command (46_scheduler.md R287). -/
def popCmds : Nat → State → State
  | 0, s => s
  | n + 1, s => popCmds n (popCmd s)

/-! ### The serializer -/

/-- The control-byte mask of a signal (40_bus_serializer.md R134). -/
def sigMask (rev : RevMap) (S : Signal) : Byte := 1#8 <<< (rev.bit S).val

/-- `sig(S)` of a control byte: bit `REV.bit(S)` (40_bus_serializer.md R134). -/
def sigOf (rev : RevMap) (S : Signal) (ctrl : Byte) : Bool := ctrl.getLsbD (rev.bit S).val

/-- `Assert(S)` of an active-low signal (40_bus_serializer.md R134). -/
def Ser.assertSig (rev : RevMap) (S : Signal) (x : Ser) : Ser :=
  { x with latch := { x.latch with ctrl := x.latch.ctrl &&& ~~~ sigMask rev S } }

/-- `Release(S)` of an active-low signal (40_bus_serializer.md R134). -/
def Ser.releaseSig (rev : RevMap) (S : Signal) (x : Ser) : Ser :=
  { x with latch := { x.latch with ctrl := x.latch.ctrl ||| sigMask rev S } }

/-- `Set(S, b)` of a level signal (40_bus_serializer.md R134). -/
def Ser.setSig (rev : RevMap) (S : Signal) (b : Bool) (x : Ser) : Ser :=
  if b then x.releaseSig rev S else x.assertSig rev S

/-- `LATCH.data <- v` (40_bus_serializer.md R134). -/
def Ser.setData (v : Byte) (x : Ser) : Ser :=
  { x with latch := { x.latch with data := v } }

/-- `Transmit()`: `BUS <- BUS ++ [(LATCH.ctrl, LATCH.data)]` (40_bus_serializer.md R135). -/
def Ser.transmit (x : Ser) : Ser :=
  { x with bus := x.bus ++ [{ ctrl := x.latch.ctrl, data := x.latch.data }] }

/-- `Hold(t)`, a busy-wait of at least `t` microseconds: it changes no state (70_reset_and_hazards.md R372). -/
def Ser.hold (_t : Nat) (x : Ser) : Ser := x

/-- `IDLE_CTRL`: the four active-low signals released, A0 = A1 = 0, unused bits 0 (40_bus_serializer.md R136). -/
def idleCtrl (rev : RevMap) : Byte :=
  sigMask rev .psgCs ||| sigMask rev .fmCs ||| sigMask rev .wr ||| sigMask rev .ic

/-- `WritePsgByte(v)` (40_bus_serializer.md R138): frames P1 to P3. -/
def Ser.writePsgByte (cfg : Cfg) (v : Byte) (x : Ser) : Ser :=
  let p1 := (((x.setData (bitrev8 v)).assertSig cfg.rev .psgCs).assertSig cfg.rev .wr).transmit
  let p2 := ((p1.hold cfg.tPsgPulse).releaseSig cfg.rev .wr).transmit
  let p3 := (p2.releaseSig cfg.rev .psgCs).transmit
  p3.hold cfg.tPsgSettle

/-- `WriteFmRegister(port, reg, val)` (40_bus_serializer.md R140): frames F1 to F7; only bit 0 of the port is used
(R141). -/
def Ser.writeFmRegister (cfg : Cfg) (port reg val : Byte) (x : Ser) : Ser :=
  let f1 := ((((x.setSig cfg.rev .a1 (port.getLsbD 0)).setSig cfg.rev .a0 false).assertSig cfg.rev .fmCs).setData
    reg).transmit
  let f2 := (f1.assertSig cfg.rev .wr).transmit
  let f3 := (f2.releaseSig cfg.rev .wr).transmit
  let f4 := ((f3.setSig cfg.rev .a0 true).setData val).transmit
  let f5 := (f4.assertSig cfg.rev .wr).transmit
  let f6 := (f5.releaseSig cfg.rev .wr).transmit
  let f7 := (f6.releaseSig cfg.rev .fmCs).transmit
  f7.hold cfg.tFmSettle

/-- `ResetChips()` (40_bus_serializer.md R142): frames Z1 and Z2, then the four PSG silence writes. -/
def Ser.resetChips (cfg : Cfg) (x : Ser) : Ser :=
  let z1 := (x.assertSig cfg.rev .ic).transmit
  let z2 := ((z1.hold cfg.tReset).releaseSig cfg.rev .ic).transmit
  ([0, 1, 2, 3] : List (BitVec 2)).foldl (fun y c => y.writePsgByte cfg (psgSilence c)) z2

/-- `WritePsgByte(v)` on the machine's state: it writes LATCH and BUS only (40_bus_serializer.md R138). -/
def State.writePsgByte (v : Byte) (s : State) : State :=
  { s with ser := s.ser.writePsgByte s.cfg v }

/-- `WriteFmRegister(port, reg, val)` on the machine's state (40_bus_serializer.md R140). -/
def State.writeFmRegister (port reg val : Byte) (s : State) : State :=
  { s with ser := s.ser.writeFmRegister s.cfg port reg val }

/-- `ResetChips()` on the machine's state: "It changes no other state" (40_bus_serializer.md R142). -/
def State.resetChips (s : State) : State :=
  { s with ser := s.ser.resetChips s.cfg }

/-- The sixteen bits a frame puts on `SDATA`, in order: byte 0 then byte 1, bit 7 first (40_bus_serializer.md R135,
20_memory.md R80). -/
def serialBits (rev : RevMap) (f : Frame) : List Bool :=
  let bits (b : Byte) : List Bool := [7, 6, 5, 4, 3, 2, 1, 0].map fun k => b.getLsbD k
  if rev.ctrlIndex = 0 then bits f.ctrl ++ bits f.data else bits f.data ++ bits f.ctrl

/-! ### What the chips see -/

/-- Chip events (40_bus_serializer.md R146). `port` is A1. -/
inductive ChipEvent where
  | psgByte (v : Byte)
  | fmAddr (port : Bool) (v : Byte)
  | fmData (port : Bool) (v : Byte)
  | resetLow
  | resetHigh
deriving DecidableEq, Repr

/-- The events of frame `f` with predecessor `p` (40_bus_serializer.md R146), in the order of the rule. -/
def frameEvents (rev : RevMap) (p f : Frame) : List ChipEvent :=
  let falls (S : Signal) : Bool := sigOf rev S p.ctrl && !sigOf rev S f.ctrl
  let rises (S : Signal) : Bool := !sigOf rev S p.ctrl && sigOf rev S f.ctrl
  (if falls .wr && !sigOf rev .psgCs f.ctrl then [ChipEvent.psgByte (bitrev8 f.data)] else []) ++
  (if falls .wr && !sigOf rev .fmCs f.ctrl && !sigOf rev .a0 f.ctrl then
    [ChipEvent.fmAddr (sigOf rev .a1 f.ctrl) f.data] else []) ++
  (if falls .wr && !sigOf rev .fmCs f.ctrl && sigOf rev .a0 f.ctrl then
    [ChipEvent.fmData (sigOf rev .a1 f.ctrl) f.data] else []) ++
  (if falls .ic then [ChipEvent.resetLow] else []) ++
  (if rises .ic then [ChipEvent.resetHigh] else [])

/-- The events of a sequence of frames that follows the frame `p`. -/
def eventsFrom (rev : RevMap) : Frame → List Frame → List ChipEvent
  | _, [] => []
  | p, f :: rest => frameEvents rev p f ++ eventsFrom rev f rest

/-- The predecessor of frame 0: `(IDLE_CTRL, 0x00)` (40_bus_serializer.md R146). -/
def idleFrame (rev : RevMap) : Frame := { ctrl := idleCtrl rev, data := 0 }

/-- The event sequence of `BUS` (40_bus_serializer.md R146, R147). -/
def chipEvents (rev : RevMap) (bus : List Frame) : List ChipEvent := eventsFrom rev (idleFrame rev) bus

/-- `FM(port, reg, val)`: the event pair of one register write (40_bus_serializer.md R147). -/
def fmEvents (port reg val : Byte) : List ChipEvent :=
  [.fmAddr (port.getLsbD 0) reg, .fmData (port.getLsbD 0) val]

/-! ### Log and errors -/

/-- `Log(code, info)` (60_exceptions.md R318). -/
def State.addLog (code : Byte) (info : U32) (s : State) : State :=
  { s with log := s.log ++ [{ code := code, info := info }] }

/-- The errors E1 to E5 (60_exceptions.md R310, R312). -/
inductive ErrorKind where
  /-- E1, info `Avail(CMDQ)`. -/
  | cmdUnderrun
  /-- E2, info 0. -/
  | pcmUnderrun
  /-- E3, info the opcode byte. -/
  | unknownOpcode (op : Byte)
  /-- E4, info `SEQ`. -/
  | streamDesync
  /-- E5, info 0. -/
  | setupFailure
deriving DecidableEq, Repr

/-- `raise <Error>(info)` (60_exceptions.md R311, R312): write the listed state, append `(code, info)` to LOG, and
return to the rule that raised it. -/
def State.raiseError (e : ErrorKind) (s : State) : State :=
  match e with
  | .cmdUnderrun =>
    { s with status := { s.status with cmdUnderrun := true } }.addLog 1 (BitVec.ofNat 32 (Queue.avail s.cmdq))
  | .pcmUnderrun => { s with status := { s.status with pcmUnderrun := true } }.addLog 2 0
  | .unknownOpcode op => { s with fault := { code := 3, info := op } }.addLog 3 (op.setWidth 32)
  | .streamDesync => s.addLog 4 s.seq
  | .setupFailure => { s with setupOk := false }.addLog 5 0

/-- The notice codes L1 to L3 (60_exceptions.md R318). -/
def logUnsupported : Byte := 0x11

/-- L2 (60_exceptions.md R318). -/
def logRateNoStream : Byte := 0x12

/-- L3 (60_exceptions.md R318). -/
def logDacQueueEmpty : Byte := 0x13

/-! ### Register files -/

/-- `FMPAN[i]`. -/
def State.fmPanAt (s : State) (i : Fin 6) : Byte := s.mix.fmPan[i]

/-- `FMPAN[i] <- v`. -/
def State.setFmPan (i : Fin 6) (v : Byte) (s : State) : State :=
  { s with mix := { s.mix with fmPan := s.mix.fmPan.set i v } }

/-- `FMALG[i]`. -/
def State.fmAlgAt (s : State) (i : Fin 6) : BitVec 3 := s.mix.fmAlg[i]

/-- `FMALG[i] <- v`. -/
def State.setFmAlg (i : Fin 6) (v : BitVec 3) (s : State) : State :=
  { s with mix := { s.mix with fmAlg := s.mix.fmAlg.set i v } }

/-- `PSGATT[c]`. -/
def State.psgAttAt (s : State) (c : BitVec 2) : Byte := s.mix.psgAtt[c.toNat]'c.isLt

/-- `PSGATT[c] <- v`. -/
def State.setPsgAtt (c : BitVec 2) (v : Byte) (s : State) : State :=
  { s with mix := { s.mix with psgAtt := s.mix.psgAtt.set c.toNat v c.isLt } }

/-- `ACTIVITY[v]`. -/
def State.activityAt (s : State) (v : Fin 10) : Activity := s.activity[v]

/-- `ACTIVITY[v].KON <- b` (10_state.md R49). -/
def State.setKon (v : Fin 10) (b : Bool) (s : State) : State :=
  { s with activity := s.activity.set v { s.activityAt v with kon := b } }

/-- `ACTIVITY[v].PARAM <- 1`; CBD never clears it (10_state.md R49). -/
def State.setParam (v : Fin 10) (s : State) : State :=
  { s with activity := s.activity.set v { s.activityAt v with param := true } }

/-- `ACTIVITY[v].DAC <- b` (10_state.md R49). -/
def State.setDac (v : Fin 10) (b : Bool) (s : State) : State :=
  { s with activity := s.activity.set v { s.activityAt v with dac := b } }

/-- `SLOT[k]`; an index outside the pool, which no reachable state uses, reads as a slot at power-on (log 9). -/
def State.slotAt (s : State) (k : Nat) : Slot := s.slots.getD k Slot.powerOn

/-- `SLOT[k] <- f(SLOT[k])`; an index outside the pool is discarded (log 9). -/
def State.modifySlot (k : Nat) (f : Slot → Slot) (s : State) : State :=
  { s with slots := s.slots.modify k f }

/-- `SLOT[k].free <- 1` (10_state.md R46). -/
def State.freeSlot (k : Nat) (s : State) : State :=
  s.modifySlot k fun x => { x with free := true }

/-! ### Memory -/

/-- The one form of the block's memory (20_memory.md R72, 10_state.md R48): every queue holds at most its
capacity (log 8). -/
def Memory.wf (s : State) : Bool :=
  decide (s.cmdq.length ≤ s.cfg.cmdCap) && decide (s.pcmq.length ≤ s.cfg.pcmCap) &&
    s.slots.all fun x => decide (x.queue.length ≤ s.cfg.slotCap)

/-! ### Reset -/

/-- Every register at its power-on value (10_state.md R52), before `Setup()` transmits anything. -/
def powerOn (cfg : Cfg) : State :=
  { State.reset with
    cfg := cfg
    ser := { latch := { ctrl := idleCtrl cfg.rev, data := 0x00 }, bus := [] }
    slots := List.replicate cfg.nSlots Slot.powerOn }

/-- `Setup()` (70_reset_and_hazards.md R361) with `SETUP_OK = ok`. Where it fails no tick ever runs (R316) and only
`setupOk` of the answer means anything. -/
def setup (cfg : Cfg) (ok : Bool) : State :=
  if ok then
    let s := powerOn cfg
    State.resetChips { s with ser := s.ser.transmit }
  else (powerOn cfg).raiseError .setupFailure

/-- The outcome of doing `k` after an outcome. -/
def andThen (o : Outcome State Fault Refusal) (k : State → Outcome State Fault Refusal) :
    Outcome State Fault Refusal :=
  match o with
  | .next s => k s
  | .fault f => .fault f
  | .refused r => .refused r

end Sys2Proof.Machine
end

