-- ==== Sys2Proof/Machine/Flags.lean ====
section
/-! DEFINITION. The flag computations: the activity decisions (42_cmd_chip_writes.md R187, R195, R196), `Armed`
(41_mix_engine.md R161), the due test (46_scheduler.md R286), and the REQ and STATUS words (10_state.md R40, R41). -/

namespace Sys2Proof.Machine

/-- The KON decision of a PSG attenuation: cleared on full attenuation, else set (42_cmd_chip_writes.md R187). -/
def psgKon (a : BitVec 4) : Bool := a != 0xF

/-- `PsgActivity(c, a)` (42_cmd_chip_writes.md R187). -/
def State.psgActivity (c : BitVec 2) (a : BitVec 4) (s : State) : State := s.setKon (psgVoice c) (psgKon a)

/-- `CARRIER[alg]` (42_cmd_chip_writes.md R196). -/
def carrier (alg : BitVec 3) : BitVec 4 :=
  if alg ≤ 3 then 0b1000
  else if alg = 4 then 0b1010
  else if alg ≤ 6 then 0b1110
  else 0b1111

/-- The KON decision of a key-on value under an algorithm (42_cmd_chip_writes.md R195). -/
def fmKon (alg : BitVec 3) (val : Byte) : Bool := (keyOnOperators val &&& carrier alg) != 0

/-- `Armed = (TRIMEN = 1) and (FWSEEN = 0)` (41_mix_engine.md R161). -/
def State.armed (s : State) : Bool := s.ctl.trimEn && !s.clk.fwSeen

/-- A command is due when `SAMPLE >= NEXTDUE`, plain unsigned (46_scheduler.md R286). -/
def State.due (s : State) : Bool := decide (s.clk.nextDue ≤ s.clk.sample)

/-- The REQ word (10_state.md R40). -/
def Req.word (r : Req) : BitVec 5 :=
  BitVec.ofBool r.resume ++ BitVec.ofBool r.stop ++ BitVec.ofBool r.reset ++ BitVec.ofBool r.updMute ++
    BitVec.ofBool r.start

/-- The signals of a REQ word (10_state.md R40). -/
def Req.ofWord (w : BitVec 5) : Req :=
  { start := w.getLsbD 0, updMute := w.getLsbD 1, reset := w.getLsbD 2, stop := w.getLsbD 3, resume := w.getLsbD 4 }

/-- Set or clear one request signal (10_state.md R40, 20_memory.md R82). -/
def Req.put (r : Req) (which : Request) (b : Bool) : Req :=
  match which with
  | .start => { r with start := b }
  | .updMute => { r with updMute := b }
  | .reset => { r with reset := b }
  | .stop => { r with stop := b }
  | .resume => { r with resume := b }

/-- The STATUS word, bits 5 and 6 the derived half-empty levels (10_state.md R41, 20_memory.md R76). -/
def State.statusWord (s : State) : BitVec 7 :=
  BitVec.ofBool (Queue.halfEmpty s.cfg.pcmCap s.pcmq) ++ BitVec.ofBool (Queue.halfEmpty s.cfg.cmdCap s.cmdq) ++
    BitVec.ofBool s.status.pcmUnderrun ++ BitVec.ofBool s.status.cmdUnderrun ++ BitVec.ofBool s.status.resetAck ++
    BitVec.ofBool s.status.finished ++ BitVec.ofBool s.status.running

/-- The 3-bit word of an activity record (10_state.md R49). -/
def Activity.word (a : Activity) : BitVec 3 :=
  BitVec.ofBool a.dac ++ BitVec.ofBool a.param ++ BitVec.ofBool a.kon

/-- Clear one flag of an activity record (10_state.md R49). -/
def Activity.clear (a : Activity) (f : ActivityFlag) : Activity :=
  match f with
  | .kon => { a with kon := false }
  | .param => { a with param := false }
  | .dac => { a with dac := false }

/-- The stored scheduler states (10_state.md R42, 60_exceptions.md R332). -/
inductive Mode where
  | idle | running | stopped
deriving DecidableEq, Repr

/-- The scheduler state held in `RUNNING` and `STOPPED` (60_exceptions.md R332). -/
def State.mode (s : State) : Mode :=
  if s.status.running then .running else if s.stopped then .stopped else .idle

end Sys2Proof.Machine
end

