-- ==== Sys2Proof/Machine/Agents.lean ====
section
/-! DEFINITION. The other agents: what LOADER, HOST and time do between two ticks (20_memory.md R75, R78, R96;
44_cmd_dac_stream.md R241; 60_exceptions.md R335). -/

namespace Sys2Proof.Machine

open Host

/-- A LOADER step on slot `k`, refused where the pool has no such slot or LOADER does not own it
(44_cmd_dac_stream.md R241, log 4). -/
def onFreeSlot (k : Nat) (f : Slot → Slot) (s : State) : Outcome State Fault Refusal :=
  match s.slots[k]? with
  | none => .refused .noSuchSlot
  | some x => if x.free then .next (s.modifySlot k f) else .refused .slotNotOwned

/-- Write the static fields and the count of a slot (44_cmd_dac_stream.md R241). -/
def Slot.withFields (x : Slot) (f : SlotFields) : Slot :=
  { x with
    sequence := f.sequence, sampleRateHz := f.sampleRateHz, chipPort := f.chipPort,
    chipRegister := f.chipRegister, lengthMode := f.lengthMode, declaredLength := f.declaredLength,
    playedCount := f.playedCount }

/-- One step of LOADER or HOST (60_exceptions.md R335). -/
def applyAction (a : AgentAction) (s : State) : Outcome State Fault Refusal :=
  match a with
  | .pushCmd b => .next { s with cmdq := (Queue.push s.cfg.cmdCap s.cmdq b).1 }
  | .pushPcm b => .next { s with pcmq := (Queue.push s.cfg.pcmCap s.pcmq b).1 }
  | .pushSlot k b =>
    match s.slots[k]? with
    | none => .refused .noSuchSlot
    | some _ => .next (s.modifySlot k fun x => { x with queue := (Queue.push s.cfg.slotCap x.queue b).1 })
  | .flushCmd =>
    if s.status.running then .refused .flushWhileRunning else .next { s with cmdq := Queue.flush s.cmdq }
  | .flushPcm =>
    if s.status.running then .refused .flushWhileRunning else .next { s with pcmq := Queue.flush s.pcmq }
  | .flushSlot k => onFreeSlot k (fun x => { x with queue := Queue.flush x.queue }) s
  | .writeSlot k f => onFreeSlot k (fun x => x.withFields f) s
  | .publishSlot k => onFreeSlot k (fun x => { x with free := false }) s
  | .reinitPool =>
    if s.status.running || s.req.start then .refused .reinitNotAllowed
    else .next { s with slots := s.slots.map fun x => { x with free := true } }
  | .setReq r => .next { s with req := s.req.put r true }
  | .withdrawReq r => .next { s with req := s.req.put r false }
  | .setFmMask m => .next { s with ctl := { s.ctl with fmMask := m } }
  | .setPsgMask m => .next { s with ctl := { s.ctl with psgMask := m } }
  | .setForceMono b => .next { s with ctl := { s.ctl with forceMono := b } }
  | .setTrimEn b => .next { s with ctl := { s.ctl with trimEn := b } }
  | .setFreqFix b => .next { s with ctl := { s.ctl with freqFix := b } }
  | .clearResetAck => .next { s with status := { s.status with resetAck := false } }
  | .clearActivity v f => .next { s with activity := s.activity.set v ((s.activityAt v).clear f) }
  | .zeroDacAcc => .next { s with trk := { s.trk with dacAcc := 0 } }
  | .zeroDacCnt => .next { s with trk := { s.trk with dacCnt := 0 } }

/-- The steps of LOADER and HOST in one interval, in order (20_memory.md R78). -/
def applyActions : List AgentAction → State → Outcome State Fault Refusal
  | [], s => .next s
  | a :: rest, s => andThen (applyAction a s) (applyActions rest)

/-- Time passes: `HWCC` advances modulo 2^32 (10_state.md R32). -/
def passTime (elapsed : Nat) (s : State) : State :=
  { s with hwcc := s.hwcc + BitVec.ofNat 32 elapsed, ticks := s.ticks + 1 }

/-- What happens between this tick and the next: the next interval of the agenda, or, where the agenda says no
more, a free amount of time and nothing else (20_memory.md R78, logs 2 and 3). -/
def betweenTicks (s : State) : Outcome State Fault Refusal :=
  match s.agenda with
  | [] => .next (passTime (Config.elapsedCycles s.ticks) s)
  | iv :: rest => applyActions iv.actions (passTime iv.elapsed { s with agenda := rest })

end Sys2Proof.Machine
end

