-- ==== Sys2Proof/Syntax.lean ====
section
/-! DEFINITION. The instructions: one constructor per row of spec/opcode_table.json, the seventeen commands of
30_encoding.md R104 and the five requests of R111. -/

namespace Sys2Proof

/-- A command of the stream or a request. Operand names and ranges are those of 30_encoding.md R102, R106 and
R112; operands that no rule reads are kept, so that no bit of an encoding is dropped. -/
inductive Instr where
  /-- `GGST v` (45_cmd_control.md R272). -/
  | ggst (v : Byte)
  /-- `PSGW v` (42_cmd_chip_writes.md R181). -/
  | psgw (v : Byte)
  /-- `FMW0 reg, val` (42_cmd_chip_writes.md R188). -/
  | fmw0 (reg val : Byte)
  /-- `FMW1 reg, val` (42_cmd_chip_writes.md R189). -/
  | fmw1 (reg val : Byte)
  /-- `WAIT n`, 0 to 65535 samples (43_cmd_waits.md R221). -/
  | wait (n : BitVec 16)
  /-- `WAIT60` (43_cmd_waits.md R222). -/
  | wait60
  /-- `WAIT50` (43_cmd_waits.md R223). -/
  | wait50
  /-- `END` (45_cmd_control.md R271). -/
  | endStream
  /-- `WAITS n`, the amount 1 to 16, not the opcode's nibble (43_cmd_waits.md R224, 30_encoding.md R106). -/
  | waits (n : Nat)
  /-- `DACW n`, the amount 0 to 15 (43_cmd_waits.md R225). -/
  | dacw (n : BitVec 4)
  /-- `STRCTL s, t, p, c` (44_cmd_dac_stream.md R243). -/
  | strctl (s t p c : Byte)
  /-- `STRDATA s, d, l, b` (44_cmd_dac_stream.md R244). -/
  | strdata (s d l b : Byte)
  /-- `STRFREQ s, f`, `f` in Hz (44_cmd_dac_stream.md R245). -/
  | strfreq (s : Byte) (f : U32)
  /-- `STRSTART s, a, m, l` (44_cmd_dac_stream.md R246). -/
  | strstart (s : Byte) (a : U32) (m : Byte) (l : U32)
  /-- `STRSTOP s` (44_cmd_dac_stream.md R248). -/
  | strstop (s : Byte)
  /-- `STRFAST s, b, f` (44_cmd_dac_stream.md R247). -/
  | strfast (s : Byte) (b : BitVec 16) (f : Byte)
  /-- `PWM a, d` (45_cmd_control.md R273). -/
  | pwm (a d : Byte)
  /-- The Start request (60_exceptions.md R322). -/
  | start
  /-- The Update-muting request (60_exceptions.md R323). -/
  | updmute
  /-- The Reset request (60_exceptions.md R324). -/
  | reset
  /-- The Stop request (60_exceptions.md R325). -/
  | stop
  /-- The Resume request (60_exceptions.md R326). -/
  | resume
deriving DecidableEq, Repr

end Sys2Proof
end

