-- ==== Sys2Proof/WellFormed.lean ====
section
/-! DEFINITION. Which instructions have an encoding (30_encoding.md R112). -/

namespace Sys2Proof

/-- The operand ranges of 30_encoding.md R112 that the operand's type does not already give: `WAITS n` takes
1 to 16. Every other operand fills its field. -/
def Instr.wellFormed : Instr → Bool
  | .waits n => decide (1 ≤ n) && decide (n ≤ 16)
  | .ggst _ => true
  | .psgw _ => true
  | .fmw0 _ _ => true
  | .fmw1 _ _ => true
  | .wait _ => true
  | .wait60 => true
  | .wait50 => true
  | .endStream => true
  | .dacw _ => true
  | .strctl _ _ _ _ => true
  | .strdata _ _ _ _ => true
  | .strfreq _ _ => true
  | .strstart _ _ _ _ => true
  | .strstop _ => true
  | .strfast _ _ _ => true
  | .pwm _ _ => true
  | .start => true
  | .updmute => true
  | .reset => true
  | .stop => true
  | .resume => true

/-- Is the row one of the seventeen commands of the stream, not one of the five requests
(30_encoding.md R104, R111)? -/
def Instr.isCommand : Instr → Bool
  | .ggst _ => true
  | .psgw _ => true
  | .fmw0 _ _ => true
  | .fmw1 _ _ => true
  | .wait _ => true
  | .wait60 => true
  | .wait50 => true
  | .endStream => true
  | .waits _ => true
  | .dacw _ => true
  | .strctl _ _ _ _ => true
  | .strdata _ _ _ _ => true
  | .strfreq _ _ => true
  | .strstart _ _ _ _ => true
  | .strstop _ => true
  | .strfast _ _ _ => true
  | .pwm _ _ => true
  | .start => false
  | .updmute => false
  | .reset => false
  | .stop => false
  | .resume => false

end Sys2Proof
end

