-- ==== Sys2Proof/Decode.lean ====
section
/-! DEFINITION. The decoder and the encoder of the command stream (30_encoding.md R100 to R110) and of the
request word (R111). -/

namespace Sys2Proof

/-- `le16(b0, b1)` of 00_scope.md R8: the byte nearer the opcode is the less significant (20_memory.md R79). -/
def le16 (b0 b1 : Byte) : BitVec 16 := b1 ++ b0

/-- `le32(b0, b1, b2, b3)` of 00_scope.md R8. -/
def le32 (b0 b1 b2 b3 : Byte) : U32 := ((b3 ++ b2 : BitVec 16) ++ b1 : BitVec 24) ++ b0

/-- Byte `k` of a little-endian field. -/
def leByte {w : Nat} (v : BitVec w) (k : Nat) : Byte := v.extractLsb' (8 * k) 8

/-- `op[7:4]`, the family selector of 30_encoding.md R101. -/
def opHigh (op : Byte) : BitVec 4 := op.extractLsb' 4 4

/-- `op[3:0]`, the operand of the two 16-member families (30_encoding.md R101). -/
def opLow (op : Byte) : BitVec 4 := op.extractLsb' 0 4

/-- `LEN[op]`, the total length of the command an opcode byte begins, 0 for a byte that begins none
(30_encoding.md R103). -/
def cmdLen (op : Byte) : Nat :=
  if op = 0x4F then 2
  else if op = 0x50 then 2
  else if op = 0x52 then 3
  else if op = 0x53 then 3
  else if op = 0x61 then 3
  else if op = 0x62 then 1
  else if op = 0x63 then 1
  else if op = 0x66 then 1
  else if opHigh op = 0x7 then 1
  else if opHigh op = 0x8 then 1
  else if op = 0x90 then 5
  else if op = 0x91 then 5
  else if op = 0x92 then 6
  else if op = 0x93 then 11
  else if op = 0x94 then 2
  else if op = 0x95 then 5
  else if op = 0xB2 then 3
  else 0

/-- The command whose bytes are exactly `b`, by the opcode map and the operand assembly of 30_encoding.md
R104 and R106; the formats are those of R100. -/
def decodeCommand (b : List Byte) : Option Instr :=
  match b with
  | [op] =>
    if op = 0x62 then some .wait60
    else if op = 0x63 then some .wait50
    else if op = 0x66 then some .endStream
    else if opHigh op = 0x7 then some (.waits ((opLow op).toNat + 1))
    else if opHigh op = 0x8 then some (.dacw (opLow op))
    else none
  | [op, v] =>
    if op = 0x4F then some (.ggst v)
    else if op = 0x50 then some (.psgw v)
    else if op = 0x94 then some (.strstop v)
    else none
  | [op, a, d] =>
    if op = 0x52 then some (.fmw0 a d)
    else if op = 0x53 then some (.fmw1 a d)
    else if op = 0x61 then some (.wait (le16 a d))
    else if op = 0xB2 then some (.pwm a d)
    else none
  | [op, b1, b2, b3, b4] =>
    if op = 0x90 then some (.strctl b1 b2 b3 b4)
    else if op = 0x91 then some (.strdata b1 b2 b3 b4)
    else if op = 0x95 then some (.strfast b1 (le16 b2 b3) b4)
    else none
  | [op, s, f0, f1, f2, f3] =>
    if op = 0x92 then some (.strfreq s (le32 f0 f1 f2 f3)) else none
  | [op, s, a0, a1, a2, a3, m, l0, l1, l2, l3] =>
    if op = 0x93 then some (.strstart s (le32 a0 a1 a2 a3) m (le32 l0 l1 l2 l3)) else none
  | _ => none

/-- Why no command stands at the head of a byte sequence. -/
inductive DecodeReject where
  /-- No byte at all. -/
  | empty
  /-- The head byte has `LEN = 0`: one of the 209 unknown opcodes (30_encoding.md R108, R109). -/
  | unknownOpcode (op : Byte)
  /-- A known opcode, but fewer than `LEN[op]` bytes (46_scheduler.md R287). -/
  | truncated (op : Byte)
deriving DecidableEq, Repr

/-- The command at the head of a byte sequence and its total length, or the reason there is none, the checks in
the order of 46_scheduler.md R287: empty, unknown, short. -/
def decode (bs : List Byte) : Except DecodeReject (Instr × Nat) :=
  match bs with
  | [] => .error .empty
  | op :: _ =>
    if cmdLen op = 0 then .error (.unknownOpcode op)
    else if bs.length < cmdLen op then .error (.truncated op)
    else
      match decodeCommand (bs.take (cmdLen op)) with
      | some i => .ok (i, cmdLen op)
      | none => .error (.unknownOpcode op)

/-- The request a REQ word asks for: its lowest-numbered set bit (30_encoding.md R111, 60_exceptions.md R320). -/
def decodeReq (w : BitVec 5) : Option Instr :=
  if w.getLsbD 0 then some .start
  else if w.getLsbD 1 then some .updmute
  else if w.getLsbD 2 then some .reset
  else if w.getLsbD 3 then some .stop
  else if w.getLsbD 4 then some .resume
  else none

/-- The bytes of a command (30_encoding.md R112); a request is not in the command stream and has none (R111). -/
def encode : Instr → List Byte
  | .ggst v => [0x4F, v]
  | .psgw v => [0x50, v]
  | .fmw0 reg val => [0x52, reg, val]
  | .fmw1 reg val => [0x53, reg, val]
  | .wait n => [0x61, leByte n 0, leByte n 1]
  | .wait60 => [0x62]
  | .wait50 => [0x63]
  | .endStream => [0x66]
  | .waits n => [0x70 + BitVec.ofNat 8 (n - 1)]
  | .dacw n => [0x80 + n.setWidth 8]
  | .strctl s t p c => [0x90, s, t, p, c]
  | .strdata s d l b => [0x91, s, d, l, b]
  | .strfreq s f => [0x92, s, leByte f 0, leByte f 1, leByte f 2, leByte f 3]
  | .strstart s a m l =>
    [0x93, s, leByte a 0, leByte a 1, leByte a 2, leByte a 3, m, leByte l 0, leByte l 1, leByte l 2, leByte l 3]
  | .strstop s => [0x94, s]
  | .strfast s b f => [0x95, s, leByte b 0, leByte b 1, f]
  | .pwm a d => [0xB2, a, d]
  | .start => []
  | .updmute => []
  | .reset => []
  | .stop => []
  | .resume => []

/-- The REQ word with just a request's bit set (30_encoding.md R111); a command has none. -/
def encodeReq : Instr → BitVec 5
  | .start => 0x01
  | .updmute => 0x02
  | .reset => 0x04
  | .stop => 0x08
  | .resume => 0x10
  | .ggst _ => 0
  | .psgw _ => 0
  | .fmw0 _ _ => 0
  | .fmw1 _ _ => 0
  | .wait _ => 0
  | .wait60 => 0
  | .wait50 => 0
  | .endStream => 0
  | .waits _ => 0
  | .dacw _ => 0
  | .strctl _ _ _ _ => 0
  | .strdata _ _ _ _ => 0
  | .strfreq _ _ => 0
  | .strstart _ _ _ _ => 0
  | .strstop _ => 0
  | .strfast _ _ _ => 0
  | .pwm _ _ => 0

/-- The bytes of a table word, the first byte in bits 7..0, up to the longest command (11 bytes). -/
def tableBytes (w : Nat) : List Byte :=
  [0, 1, 2, 3, 4, 5, 6, 7, 8, 9, 10].map fun k => BitVec.ofNat 8 (w / 2 ^ (8 * k))

/-- The bits of a table word that count: `nbits` of them, at least one byte. -/
def tableBits (nbits w : Nat) : Nat := w % 2 ^ max nbits 8

/-- The instruction a word of spec/opcode_table.json stands for. A word that is no command is read as a REQ word
where its bits above bit 4 are 0: the table's request rows number the bits of REQ, not of a command byte
(30_encoding.md R111, log 10). -/
def decodeTableWord (nbits w : Nat) : Option Instr :=
  match decode (tableBytes (tableBits nbits w)) with
  | .ok (i, _) => some i
  | .error _ =>
    if tableBits nbits w < 32 then decodeReq (BitVec.ofNat 5 (tableBits nbits w)) else none

end Sys2Proof
end

