-- ==== Sys2Proof/Machine/Mix.lean ====
section
/-! DEFINITION. MIX, the mixing/muting multiplexer (41_mix_engine.md). -/

namespace Sys2Proof.Machine

/-- The silent form of an FM pan byte, `p & 0x3F` (41_mix_engine.md R160). -/
def fmSilent (p : Byte) : Byte := p &&& 0x3F

/-- The silent form of a PSG attenuation byte, `a | 0x0F` (41_mix_engine.md R160). -/
def psgSilent (a : Byte) : Byte := a ||| 0x0F

/-- `FmMaskBit(i)`: index 5 uses mask bit 6 while `DACEN = 1` (41_mix_engine.md R163). -/
def State.fmMaskBit (s : State) (i : Fin 6) : Bool :=
  if i = 5 ∧ s.trk.dacEn = true then s.ctl.fmMask.getLsbD 6 else s.ctl.fmMask.getLsbD i.val

/-- The mono step of `FmPanOut`, after the silencing step (41_mix_engine.md R162). -/
def monoPan (forceMono : Bool) (p : Byte) : Byte :=
  if forceMono = true ∧ p &&& 0xC0 ≠ 0 then p ||| 0xC0 else p

/-- `FmPanOut(i, force)` (41_mix_engine.md R162). -/
def State.fmPanOut (s : State) (i : Fin 6) (force : Bool) : Byte :=
  let p := s.fmPanAt i
  let q :=
    if force || s.armed then fmSilent p
    else if s.fmMaskBit i = false then fmSilent p
    else p
  monoPan s.ctl.forceMono q

/-- `PsgAttOut(c, force)`: two independent silencing steps (41_mix_engine.md R164, R171). -/
def State.psgAttOut (s : State) (c : BitVec 2) (force : Bool) : Byte :=
  let a := s.psgAttAt c
  let a1 := if force || s.armed then psgSilent a else a
  if s.ctl.psgMask.getLsbD c.toNat = false then psgSilent a1 else a1

/-- The writes of one `EmitMuting` pass, with the ten bytes given: FM 0 to 5, then PSG 0 to 3
(41_mix_engine.md R165, R166). -/
def Ser.emitMuting (cfg : Cfg) (fm : Fin 6 → Byte) (psg : BitVec 2 → Byte) (x : Ser) : Ser :=
  let y := ([0, 1, 2, 3, 4, 5] : List (Fin 6)).foldl
    (fun z i => z.writeFmRegister cfg (fmPanPort i) (fmPanReg i) (fm i)) x
  ([0, 1, 2, 3] : List (BitVec 2)).foldl (fun z c => z.writePsgByte cfg (psg c)) y

/-- `EmitMuting(force)`: a function of caches and controls, which it does not write (41_mix_engine.md R166, R167). -/
def State.emitMuting (force : Bool) (s : State) : State :=
  { s with
    ser := s.ser.emitMuting s.cfg (fun i => s.fmPanOut i force) (fun c => s.psgAttOut c force) }

/-- `UpdateMuting()` is `EmitMuting(false)` (41_mix_engine.md R166). -/
def State.updateMuting (s : State) : State := s.emitMuting false

/-- `ForceSilent()` is `EmitMuting(true)` (41_mix_engine.md R166). -/
def State.forceSilent (s : State) : State := s.emitMuting true

/-- `SetFirstWait(now)`, `now` the tick's reading in `hwcc` (41_mix_engine.md R168). -/
def State.setFirstWait (s : State) : State :=
  State.updateMuting
    { s with
      clk := { s.clk with fwSeen := true, cyc := 0, lastHw := s.hwcc, sample := 0 }
      act := if s.act.active then { s.act with last := 0 } else s.act }

end Sys2Proof.Machine
end

