-- ==== Sys2Proof/Machine/ChipWrites.lean ====
section
/-! DEFINITION. The chip-write commands PSGW, FMW0, FMW1 (42_cmd_chip_writes.md). -/

namespace Sys2Proof.Machine

open Host

/-- An attenuation write of channel `c`: cache the latch form, update the activity from the written value, transmit
through MIX. The common part of `PsgAttLatch` and `PsgAttData` (42_cmd_chip_writes.md R183, R185). -/
def psgAttWrite (c : BitVec 2) (cached : Byte) (a : BitVec 4) (s : State) : State :=
  let s1 := (s.setPsgAtt c cached).psgActivity c a
  s1.writePsgByte (s1.psgAttOut c false)

/-- `PsgAttLatch(v)` (42_cmd_chip_writes.md R183). -/
def psgAttLatch (v : Byte) (s : State) : State := psgAttWrite (psgChannel v) v (psgNibble v) s

/-- `PsgFreqLatch(v)`: transmitted unmodified; the noise channel invalidates the cached low byte
(42_cmd_chip_writes.md R184). -/
def psgFreqLatch (v : Byte) (s : State) : State :=
  let trk := if psgChannel v ≠ 3 then { s.trk with psgLow := v, psgLowV := true } else { s.trk with psgLowV := false }
  { s with trk := trk }.writePsgByte v

/-- `PsgAttData(v)`: the equivalent latch byte of the last latched channel (42_cmd_chip_writes.md R185). -/
def psgAttData (v : Byte) (s : State) : State :=
  psgAttWrite s.trk.psgCh (psgAttByte s.trk.psgCh (psgNibble v)) (psgNibble v) s

/-- When the frequency fix fires on a data byte (42_cmd_chip_writes.md R186). -/
def freqFixFires (v : Byte) (s : State) : Bool :=
  s.ctl.freqFix && s.trk.psgLowV && s.trk.psgCh != 3 && (s.trk.psgLow &&& 0x0F) == 0 && (v &&& 0x3F) == 0

/-- The frequency fix: set bit 0 of the cached low byte and transmit it (42_cmd_chip_writes.md R186). -/
def applyFreqFix (s : State) : State :=
  let low := s.trk.psgLow ||| 0x01
  { s with trk := { s.trk with psgLow := low } }.writePsgByte low

/-- `PsgFreqData(v)` (42_cmd_chip_writes.md R186). -/
def psgFreqData (v : Byte) (s : State) : State :=
  (if freqFixFires v s then applyFreqFix s else s).writePsgByte v

/-- Channel tracking of a latch byte (42_cmd_chip_writes.md R182). -/
def trackLatch (v : Byte) (s : State) : State :=
  { s with trk := { s.trk with psgCh := psgChannel v, psgType := psgIsAtt v } }

/-- `PSGW(v)` (42_cmd_chip_writes.md R181). -/
def psgWrite (v : Byte) (s : State) : State :=
  if psgIsLatch v then
    if psgIsAtt v then psgAttLatch v (trackLatch v s) else psgFreqLatch v (trackLatch v s)
  else if s.trk.psgType then psgAttData v s
  else psgFreqData v s

/-- `FmPan(port, reg, val)` (42_cmd_chip_writes.md R191). -/
def fmPan (port : Bool) (reg val : Byte) (i : Fin 6) (s : State) : State :=
  let s1 := s.setFmPan i val
  s1.writeFmRegister (portByte port) reg (s1.fmPanOut i false)

/-- `FmAlg(port, reg, val)`: bits 2:0 are cached (42_cmd_chip_writes.md R193, R194). -/
def fmAlg (port : Bool) (reg val : Byte) (i : Fin 6) (s : State) : State :=
  ((s.setFmAlg i (val.extractLsb' 0 3)).setParam (fmVoice i)).writeFmRegister (portByte port) reg val

/-- `FmKeyOn(val)` (42_cmd_chip_writes.md R195). -/
def fmKeyOn (val : Byte) (s : State) : State :=
  let s1 :=
    match keyOnChannel val with
    | some i => s.setKon (fmVoice i) (fmKon (s.fmAlgAt i) val)
    | none => s
  s1.writeFmRegister 0 0x28 val

/-- `FmDacEnable(val)`: the enable write first, then the pan of index 5 under the new `DACEN`
(42_cmd_chip_writes.md R197). -/
def fmDacEnable (val : Byte) (s : State) : State :=
  let s1 := State.setDac 5 (val.getLsbD 7) { s with trk := { s.trk with dacEn := val.getLsbD 7 } }
  let s2 := s1.writeFmRegister 0 0x2B val
  s2.writeFmRegister 1 0xB6 (s2.fmPanOut 5 false)

/-- `FmDacData(val)` (42_cmd_chip_writes.md R199). -/
def fmDacData (val : Byte) (s : State) : State :=
  State.writeFmRegister 0 0x2A val
    { s with trk := { s.trk with dacAcc := s.trk.dacAcc + dacDeviation val, dacCnt := s.trk.dacCnt + 1 } }

/-- `FmChParam(port, reg, val)` (42_cmd_chip_writes.md R200). -/
def fmChParam (port : Bool) (reg val : Byte) (i : Fin 6) (s : State) : State :=
  (s.setParam (fmVoice i)).writeFmRegister (portByte port) reg val

/-- `FmWrite(port, reg, val)` (42_cmd_chip_writes.md R190, R201). -/
def fmWrite (port : Bool) (reg val : Byte) (s : State) : State :=
  match fmClass port reg with
  | .pan i => fmPan port reg val i s
  | .alg i => fmAlg port reg val i s
  | .keyOn => fmKeyOn val s
  | .dacEn => fmDacEnable val s
  | .dacData => fmDacData val s
  | .chParam i => fmChParam port reg val i s
  | .other => s.writeFmRegister (portByte port) reg val

/-- `PSGW v` (42_cmd_chip_writes.md R181). -/
def execPsgw (v : Byte) (s : State) : Outcome State Fault Refusal := .next (psgWrite v s)

/-- `FMW0 reg, val` (42_cmd_chip_writes.md R188). -/
def execFmw0 (reg val : Byte) (s : State) : Outcome State Fault Refusal := .next (fmWrite false reg val s)

/-- `FMW1 reg, val` (42_cmd_chip_writes.md R189). -/
def execFmw1 (reg val : Byte) (s : State) : Outcome State Fault Refusal := .next (fmWrite true reg val s)

end Sys2Proof.Machine
end

