-- ==== Sys2Proof/Machine/Control.lean ====
section
/-! DEFINITION. The control commands END, GGST, PWM (45_cmd_control.md). -/

namespace Sys2Proof.Machine

open Host

/-- `END` (45_cmd_control.md R271). -/
def execEnd (s : State) : Outcome State Fault Refusal :=
  .next
    (State.resetChips
      { s with status := { s.status with running := false, finished := true }, stopped := false })

/-- `GGST v`: a warning, no chip effect (45_cmd_control.md R272). -/
def execGgst (_v : Byte) (s : State) : Outcome State Fault Refusal := .next (s.addLog logUnsupported 0x4F)

/-- `PWM a, d`: a warning, no chip effect (45_cmd_control.md R273). -/
def execPwm (_a _d : Byte) (s : State) : Outcome State Fault Refusal := .next (s.addLog logUnsupported 0xB2)

end Sys2Proof.Machine
end

