-- ==== Sys2Proof/Machine/DacStream.lean ====
section
/-! DEFINITION. DACS: the stream commands and the DAC tick (44_cmd_dac_stream.md). -/

namespace Sys2Proof.Machine

open Host

/-- Is a slot skipped by a start that makes the counter `seq`: not free and strictly between `LASTSEQ` and it
(44_cmd_dac_stream.md R249)? -/
def slotSkipped (lastSeq seq : U32) (x : Slot) : Bool :=
  !x.free && decide (lastSeq < x.sequence) && decide (x.sequence < seq)

/-- The retire loop of `StreamStart` (44_cmd_dac_stream.md R249). -/
def retireSkipped (s : State) : State :=
  { s with slots := s.slots.map fun x => if slotSkipped s.lastSeq s.seq x then { x with free := true } else x }

/-- The lowest not-free slot that holds the sequence `SEQ` (44_cmd_dac_stream.md R249). -/
def findSlot (s : State) : Option Nat := s.slots.findIdx? fun x => !x.free && x.sequence == s.seq

/-- "the replaced stream's slot" (44_cmd_dac_stream.md R249). -/
def freeReplaced (s : State) : State := if s.act.active then s.freeSlot s.act.slot else s

/-- Copy slot `m` into the active playback state and mark it active (44_cmd_dac_stream.md R249). -/
def activateSlot (m : Nat) (s : State) : State :=
  let x := s.slotAt m
  { s.modifySlot m (fun y => { y with playedCount := 0 }) with
    act :=
      { active := true, slot := m, rate := x.sampleRateHz, port := x.chipPort, reg := x.chipRegister,
        mode := x.lengthMode, len := x.declaredLength, last := s.clk.cyc }
    lastSeq := s.seq }

/-- `StreamStart()` (44_cmd_dac_stream.md R249). -/
def streamStart (s : State) : State :=
  let s1 := retireSkipped { s with seq := s.seq + 1 }
  match findSlot s1 with
  | none => s1.raiseError .streamDesync
  | some m => activateSlot m (freeReplaced s1)

/-- `STRSTOP`: clear the active flag and return the slot (44_cmd_dac_stream.md R248). -/
def streamStop (s : State) : State :=
  if s.act.active then { s with act := { s.act with active := false } }.freeSlot s.act.slot else s

/-- `STRFREQ`: the rate of the active stream, else a notice (44_cmd_dac_stream.md R245). -/
def streamFreq (f : U32) (s : State) : State :=
  if s.act.active then { s with act := { s.act with rate := f } } else s.addLog logRateNoStream 0

/-- `max(1, CLOCK_HZ div rate)`, for `rate >= 1` (44_cmd_dac_stream.md R251). -/
def period (cfg : Cfg) (rate : U32) : U64 := BitVec.ofNat 64 (max 1 (cfg.clockHz / rate.toNat))

/-- Does a bounded stream end with the byte just counted (44_cmd_dac_stream.md R252, R253)? -/
def streamEnds (s : State) : Bool :=
  s.act.mode == .byLength && decide (s.act.len ≤ (s.slotAt s.act.slot).playedCount)

/-- Emit one stream byte: write it, advance `ACT.last` by exactly one period, count it, end by length
(44_cmd_dac_stream.md R252). -/
def dacEmit (b : Byte) (rest : List Byte) (s : State) : State :=
  let s1 := (s.modifySlot s.act.slot fun x => { x with queue := rest }).writeFmRegister s.act.port s.act.reg b
  let s2 := { s1 with act := { s1.act with last := s1.act.last + period s1.cfg s1.act.rate } }
  let s3 := s2.modifySlot s2.act.slot fun x => { x with playedCount := x.playedCount + 1 }
  if streamEnds s3 then { s3 with act := { s3.act with active := false } }.freeSlot s3.act.slot else s3

/-- Is a stream byte due: a rate, and a whole period since the last one (44_cmd_dac_stream.md R251, R252)? -/
def streamDue (s : State) : Bool :=
  s.act.rate != 0 && decide (period s.cfg s.act.rate ≤ s.clk.cyc - s.act.last)

/-- `DacTick()` (44_cmd_dac_stream.md R252). -/
def dacTick (s : State) : State :=
  if s.act.active then
    match Queue.pop (s.slotAt s.act.slot).queue with
    | none => s.addLog logDacQueueEmpty (BitVec.ofNat 32 s.act.slot)
    | some (b, rest) => if streamDue s then dacEmit b rest s else s
  else s

/-- `STRCTL s, t, p, c`: consumed without effect (44_cmd_dac_stream.md R243). -/
def execStrctl (_s _t _p _c : Byte) (s : State) : Outcome State Fault Refusal := .next s

/-- `STRDATA s, d, l, b`: consumed without effect (44_cmd_dac_stream.md R244). -/
def execStrdata (_s _d _l _b : Byte) (s : State) : Outcome State Fault Refusal := .next s

/-- `STRFREQ s, f` (44_cmd_dac_stream.md R245). -/
def execStrfreq (_s : Byte) (f : U32) (s : State) : Outcome State Fault Refusal := .next (streamFreq f s)

/-- `STRSTART s, a, m, l` (44_cmd_dac_stream.md R246). -/
def execStrstart (_s : Byte) (_a : U32) (_m : Byte) (_l : U32) (s : State) : Outcome State Fault Refusal :=
  .next (streamStart s)

/-- `STRSTOP s` (44_cmd_dac_stream.md R248). -/
def execStrstop (_s : Byte) (s : State) : Outcome State Fault Refusal := .next (streamStop s)

/-- `STRFAST s, b, f`, identical to `STRSTART` (44_cmd_dac_stream.md R247). -/
def execStrfast (_s : Byte) (_b : BitVec 16) (_f : Byte) (s : State) : Outcome State Fault Refusal :=
  .next (streamStart s)

end Sys2Proof.Machine
end

