-- ==== Sys2Proof/Machine/Requests.lean ====
section
/-! DEFINITION. The request services START, UPDMUTE, RESET, STOP, RESUME (60_exceptions.md R322 to R326): the
block's interrupts and, with STOP and RESUME, its only suspend and continue (R330). -/

namespace Sys2Proof.Machine

open Host

/-- `ServiceStart(now)` (60_exceptions.md R322). -/
def serviceStart (s : State) : State :=
  { s with
    req := s.req.put .start false
    mix := MixCaches.initial
    trk := Tracking.initial
    clk := { lastHw := s.hwcc, cyc := 0, sample := 0, nextDue := 0, fwSeen := false, paused := 0 }
    seq := 0
    lastSeq := 0
    act := ActiveStream.idle
    status := { s.status with cmdUnderrun := false, pcmUnderrun := false, finished := false, running := true }
    stopped := false }

/-- `ServiceUpdMute()` (60_exceptions.md R323). -/
def serviceUpdMute (s : State) : State :=
  State.updateMuting { s with req := s.req.put .updMute false }

/-- `ServiceReset()` (60_exceptions.md R324). -/
def serviceReset (s : State) : State :=
  let s1 := State.resetChips { s with req := s.req.put .reset false }
  { s1 with status := { s1.status with resetAck := true } }

/-- `ServiceStop()` (60_exceptions.md R325). -/
def serviceStop (s : State) : State :=
  let s1 :=
    State.forceSilent { s with req := s.req.put .stop false, clk := { s.clk with paused := s.clk.sample } }
  { s1 with status := { s1.status with running := false }, stopped := true }

/-- `PAUSED * CPS`, the u64 product of the re-baseline (60_exceptions.md R326, 46_scheduler.md R291). -/
def pausedCycles (s : State) : U64 := BitVec.ofNat 64 (s.clk.paused.toNat * s.cfg.cps)

/-- `ServiceResume(now)` (60_exceptions.md R326). -/
def serviceResume (s : State) : State :=
  let s1 := State.updateMuting { s with req := s.req.put .resume false }
  { s1 with
    clk := { s1.clk with cyc := pausedCycles s1, lastHw := s1.hwcc, sample := s1.clk.paused }
    act := if s1.act.active then { s1.act with last := pausedCycles s1 } else s1.act
    status := { s1.status with running := true }
    stopped := false }

/-- The Start request (60_exceptions.md R322). -/
def execStart (s : State) : Outcome State Fault Refusal := .next (serviceStart s)

/-- The Update-muting request (60_exceptions.md R323). -/
def execUpdmute (s : State) : Outcome State Fault Refusal := .next (serviceUpdMute s)

/-- The Reset request (60_exceptions.md R324). -/
def execReset (s : State) : Outcome State Fault Refusal := .next (serviceReset s)

/-- The Stop request (60_exceptions.md R325). -/
def execStop (s : State) : Outcome State Fault Refusal := .next (serviceStop s)

/-- The Resume request (60_exceptions.md R326). -/
def execResume (s : State) : Outcome State Fault Refusal := .next (serviceResume s)

end Sys2Proof.Machine
end

