-- ==== Sys2Proof/Machine/Waits.lean ====
section
/-! DEFINITION. The wait commands WAIT, WAIT60, WAIT50, WAITS, DACW (43_cmd_waits.md). -/

namespace Sys2Proof.Machine

open Host

/-- `Wait(W, now)` (43_cmd_waits.md R220). -/
def waitSamples (w : U32) (s : State) : State :=
  let s1 := { s with clk := { s.clk with nextDue := s.clk.nextDue + w } }
  if w ≠ 0 ∧ s1.clk.fwSeen = false then s1.setFirstWait else s1

/-- The DAC write of `DACW`: pop PCMQ and write the DAC data register, or a PCM underrun
(43_cmd_waits.md R225, R226). -/
def dacPop (s : State) : State :=
  match Queue.pop s.pcmq with
  | some (b, rest) =>
    State.writeFmRegister 0 0x2A b { s with pcmq := rest, status := { s.status with pcmUnderrun := false } }
  | none => s.raiseError .pcmUnderrun

/-- `WAIT n` (43_cmd_waits.md R221). -/
def execWait (n : BitVec 16) (s : State) : Outcome State Fault Refusal := .next (waitSamples (n.setWidth 32) s)

/-- `WAIT60` (43_cmd_waits.md R222). -/
def execWait60 (s : State) : Outcome State Fault Refusal := .next (waitSamples wait60Amount s)

/-- `WAIT50` (43_cmd_waits.md R223). -/
def execWait50 (s : State) : Outcome State Fault Refusal := .next (waitSamples wait50Amount s)

/-- `WAITS n`, `n` the amount (43_cmd_waits.md R224). -/
def execWaits (n : Nat) (s : State) : Outcome State Fault Refusal := .next (waitSamples (BitVec.ofNat 32 n) s)

/-- `DACW n`: the chip write comes before the wait step (43_cmd_waits.md R225). -/
def execDacw (n : BitVec 4) (s : State) : Outcome State Fault Refusal :=
  .next (waitSamples (n.setWidth 32) (dacPop s))

end Sys2Proof.Machine
end

