-- ==== Sys2Proof/Machine/Dispatch.lean ====
section
/-! DEFINITION. What each instruction does: one arm per constructor of Instr, each one direct call of its meaning.
A command's meaning is that of the fetched command (46_scheduler.md R288): its bytes have been popped. -/

namespace Sys2Proof.Machine

open Host

/-- `Execute(b, now)` of 46_scheduler.md R288 on the decoded command, and the services of 46_scheduler.md R283. -/
def exec (i : Instr) (s : State) : Host.Outcome State Fault Refusal :=
  match i with
  | .ggst v => Sys2Proof.Machine.execGgst v s
  | .psgw v => Sys2Proof.Machine.execPsgw v s
  | .fmw0 reg val => Sys2Proof.Machine.execFmw0 reg val s
  | .fmw1 reg val => Sys2Proof.Machine.execFmw1 reg val s
  | .wait n => Sys2Proof.Machine.execWait n s
  | .wait60 => Sys2Proof.Machine.execWait60 s
  | .wait50 => Sys2Proof.Machine.execWait50 s
  | .endStream => Sys2Proof.Machine.execEnd s
  | .waits n => Sys2Proof.Machine.execWaits n s
  | .dacw n => Sys2Proof.Machine.execDacw n s
  | .strctl sid t p c => Sys2Proof.Machine.execStrctl sid t p c s
  | .strdata sid d l b => Sys2Proof.Machine.execStrdata sid d l b s
  | .strfreq sid f => Sys2Proof.Machine.execStrfreq sid f s
  | .strstart sid a m l => Sys2Proof.Machine.execStrstart sid a m l s
  | .strstop sid => Sys2Proof.Machine.execStrstop sid s
  | .strfast sid b f => Sys2Proof.Machine.execStrfast sid b f s
  | .pwm a d => Sys2Proof.Machine.execPwm a d s
  | .start => Sys2Proof.Machine.execStart s
  | .updmute => Sys2Proof.Machine.execUpdmute s
  | .reset => Sys2Proof.Machine.execReset s
  | .stop => Sys2Proof.Machine.execStop s
  | .resume => Sys2Proof.Machine.execResume s

end Sys2Proof.Machine
end

