-- ==== Sys2Proof/Machine/Scheduler.lean ====
section
/-! DEFINITION. CLK and ARB: the sample-clock divider, the command fetch and the tick (46_scheduler.md). -/

namespace Sys2Proof.Machine

open Host

/-- `CYC + delta` in 64 bits; a sum that does not fit is a free value (46_scheduler.md R282, R291, log 7). -/
def addCycles (cyc : U64) (delta : U32) : U64 :=
  if cyc.toNat + delta.toNat < 2 ^ 64 then cyc + delta.setWidth 64 else Config.cycOverflow cyc delta

/-- `(CYC div CPS) mod 2^32` (46_scheduler.md R282, 10_state.md R36). -/
def sampleOf (cfg : Cfg) (cyc : U64) : U32 := BitVec.ofNat 32 (cyc.toNat / cfg.cps)

/-- `ClockAdvance(now)`, `now` the reading in `hwcc` (46_scheduler.md R282). -/
def clockAdvance (s : State) : State :=
  let cyc := addCycles s.clk.cyc (s.hwcc - s.clk.lastHw)
  { s with clk := { s.clk with lastHw := s.hwcc, cyc := cyc, sample := sampleOf s.cfg cyc } }

/-- A successful fetch of a command of `n` bytes: pop them and clear `CMD_UNDERRUN` (46_scheduler.md R287). -/
def fetched (n : Nat) (s : State) : State :=
  let s1 := popCmds n s
  { s1 with status := { s1.status with cmdUnderrun := false } }

/-- `CommandStep(now)` (46_scheduler.md R287): the checks empty, unknown, short are the decoder's. -/
def commandStep (s : State) : Outcome State Fault Refusal :=
  match decode s.cmdq with
  | .ok (i, n) => exec i (fetched n s)
  | .error .empty => .next (s.raiseError .cmdUnderrun)
  | .error (.truncated _) => .next (s.raiseError .cmdUnderrun)
  | .error (.unknownOpcode op) => .next (s.raiseError (.unknownOpcode op))

/-- `RunningTick(now)` (46_scheduler.md R285): clock, command if due, DAC tick if still running. -/
def runningTick (s : State) : Outcome State Fault Refusal :=
  let s1 := clockAdvance s
  andThen (if s1.due then commandStep s1 else .next s1) fun s2 =>
    .next (if s2.status.running then dacTick s2 else s2)

/-- `IdleTick()`: no state change (46_scheduler.md R289). -/
def idleTick (s : State) : Outcome State Fault Refusal := .next s

/-- `FAULT <- (0, 0)`, the start of every tick (46_scheduler.md R283, R284). -/
def clearFault (s : State) : State := { s with fault := { code := 0, info := 0 } }

/-- `Tick(now)`: FAULT is cleared, then the first branch that applies, in fixed priority (46_scheduler.md R283,
60_exceptions.md R320). -/
def tick (s : State) : Outcome State Fault Refusal :=
  let s0 := clearFault s
  match decodeReq s0.req.word with
  | some i => exec i s0
  | none => if s0.status.running then runningTick s0 else idleTick s0

end Sys2Proof.Machine
end

