-- ==== Sys2Proof/Machine/Step.lean ====
section
/-! DEFINITION. One step: a tick, then what the other agents do before the next one. -/

namespace Sys2Proof.Machine

/-- One step of the machine: `Tick(now)` with `now` the reading in `hwcc` (46_scheduler.md R280), then the interval
before the next tick (20_memory.md R78). With `SETUP_OK` false the block never ticks (60_exceptions.md R316). -/
def step (s : State) : Host.Outcome State Fault Refusal :=
  if s.setupOk then andThen (tick s) betweenTicks else .fault .setupFailure

/-- The state with a table word placed where the very next `step` runs it (log 6): a request word in REQ; any other
word over the first bytes of CMDQ, with the block running, no request pending and a command due. -/
def State.withFetchWord (s : State) (nbits w : Nat) : State :=
  let bytes := tableBytes (tableBits nbits w)
  match decode bytes, decodeReq (BitVec.ofNat 5 (tableBits nbits w)), decide (tableBits nbits w < 32) with
  | .error _, some _, true =>
    { s with setupOk := true, req := Req.ofWord (BitVec.ofNat 5 (tableBits nbits w)) }
  | _, _, _ =>
    { s with
      setupOk := true
      cmdq := bytes ++ s.cmdq.drop bytes.length
      req := Req.none
      status := { s.status with running := true }
      clk := { s.clk with nextDue := 0 } }

end Sys2Proof.Machine
end

