-- ==== Sys2Proof/Machine/Timing.lean ====
section
/-! DEFINITION. The minimum durations of the bus operations, in microseconds (70_reset_and_hazards.md R380). No
other definition uses them: no rule's result depends on time (R372, log 12). `tf` is the time of one frame, which
the spec does not give. -/

namespace Sys2Proof.Machine

/-- Minimum duration of `WritePsgByte`: 25 us + 3 tf under the default holds (70_reset_and_hazards.md R380). -/
def minPsgWrite (cfg : Cfg) (tf : Nat) : Nat := cfg.tPsgPulse + cfg.tPsgSettle + 3 * tf

/-- Minimum duration of `WriteFmRegister`: 5 us + 7 tf (70_reset_and_hazards.md R380). -/
def minFmWrite (cfg : Cfg) (tf : Nat) : Nat := cfg.tFmSettle + 7 * tf

/-- Minimum duration of `ResetChips`: 1.1 ms + 14 tf (70_reset_and_hazards.md R380). -/
def minResetChips (cfg : Cfg) (tf : Nat) : Nat := cfg.tReset + 2 * tf + 4 * minPsgWrite cfg tf

/-- Minimum duration of `UpdateMuting` and `ForceSilent`: 130 us + 54 tf (70_reset_and_hazards.md R380). -/
def minEmitMuting (cfg : Cfg) (tf : Nat) : Nat := 6 * minFmWrite cfg tf + 4 * minPsgWrite cfg tf

/-- Minimum duration of the longest tick: 140 us + 68 tf (70_reset_and_hazards.md R380, 46_scheduler.md R290). -/
def minLongestTick (cfg : Cfg) (tf : Nat) : Nat := 2 * minFmWrite cfg tf + minEmitMuting cfg tf

end Sys2Proof.Machine
end

