-- ==== Sys2Proof/Safety.lean ====
section
/-! DEFINITION. What counts as a safe run: the invariants of the spec's rules, and the words statements use for
what a step sends to the chips. -/

namespace Sys2Proof.Machine

/-- The control bits in the image of `REV.bit`. -/
def usedMask (rev : RevMap) : Byte :=
  sigMask rev .psgCs ||| sigMask rev .fmCs ||| sigMask rev .wr ||| sigMask rev .a0 ||| sigMask rev .a1 |||
    sigMask rev .ic

/-- A control byte between primitives: both selects, the strobe and reset released, unused bits 0
(40_bus_serializer.md R137, R143). -/
abbrev CtrlIdle (rev : RevMap) (ctrl : Byte) : Prop :=
  sigOf rev .psgCs ctrl = true ∧ sigOf rev .fmCs ctrl = true ∧ sigOf rev .wr ctrl = true ∧
    sigOf rev .ic ctrl = true ∧ ctrl &&& ~~~ usedMask rev = 0

/-- The bus invariants of one frame (40_bus_serializer.md R148). -/
abbrev FrameLegal (rev : RevMap) (f : Frame) : Prop :=
  ¬(sigOf rev .psgCs f.ctrl = false ∧ sigOf rev .fmCs f.ctrl = false) ∧
  (sigOf rev .wr f.ctrl = false → (sigOf rev .psgCs f.ctrl ^^ sigOf rev .fmCs f.ctrl) = true) ∧
  (sigOf rev .ic f.ctrl = false →
    sigOf rev .psgCs f.ctrl = true ∧ sigOf rev .fmCs f.ctrl = true ∧ sigOf rev .wr f.ctrl = true) ∧
  f.ctrl &&& ~~~ usedMask rev = 0

/-- The last frame on the bus, or frame 0's predecessor (40_bus_serializer.md R146). -/
def lastFrame (rev : RevMap) (bus : List Frame) : Frame := bus.getLast?.getD (idleFrame rev)

/-- The serializer between primitives: the latch is idle and is what the last frame sent (40_bus_serializer.md
R143). -/
abbrev SerReady (rev : RevMap) (x : Ser) : Prop :=
  CtrlIdle rev x.latch.ctrl ∧ (lastFrame rev x.bus).ctrl = x.latch.ctrl

/-- `SerReady`, and every frame of BUS keeps the bus invariants (40_bus_serializer.md R148). -/
abbrev SerInv (rev : RevMap) (x : Ser) : Prop :=
  SerReady rev x ∧ ∀ f ∈ x.bus, FrameLegal rev f

/-- A state whose signal map is well formed and whose serializer is between primitives. -/
abbrev BusReady (s : State) : Prop := s.cfg.rev.Wf ∧ SerReady s.cfg.rev s.ser

/-- `t` has sent the chips exactly the events `evs` since `s` (40_bus_serializer.md R147). -/
def Sends (s t : State) (evs : List ChipEvent) : Prop :=
  chipEvents s.cfg.rev t.ser.bus = chipEvents s.cfg.rev s.ser.bus ++ evs

/-- The ten events of an `EmitMuting` pass with the given bytes (41_mix_engine.md R166). -/
def mutingEvents (fm : Fin 6 → Byte) (psg : BitVec 2 → Byte) : List ChipEvent :=
  fmEvents 0 0xB4 (fm 0) ++ fmEvents 0 0xB5 (fm 1) ++ fmEvents 0 0xB6 (fm 2) ++
    fmEvents 1 0xB4 (fm 3) ++ fmEvents 1 0xB5 (fm 4) ++ fmEvents 1 0xB6 (fm 5) ++
    [.psgByte (psg 0), .psgByte (psg 1), .psgByte (psg 2), .psgByte (psg 3)]

/-- The events of `ResetChips()` (40_bus_serializer.md R147). -/
def resetEvents : List ChipEvent :=
  [.resetLow, .resetHigh, .psgByte 0x9F, .psgByte 0xBF, .psgByte 0xDF, .psgByte 0xFF]

/-- `SAMPLE = (CYC div CPS) mod 2^32` (10_state.md R36). -/
abbrev ClockInv (s : State) : Prop := s.clk.sample = BitVec.ofNat 32 (s.clk.cyc.toNat / s.cfg.cps)

/-- `PSGATT[c]` is in latch form `0b1 cc 1 aaaa` (10_state.md R25). -/
abbrev PsgAttInv (s : State) : Prop :=
  ∀ c : Fin 4, s.mix.psgAtt[c] &&& 0xF0 = psgAttByte (BitVec.ofFin c) 0

/-- The pool has N_SLOTS slots and an active stream plays one of them (10_state.md R45, R46). -/
abbrev PoolInv (s : State) : Prop :=
  s.slots.length = s.cfg.nSlots ∧ (s.act.active = true → s.act.slot < s.slots.length)

/-- `CYC >= ACT.last` whenever a stream is active (44_cmd_dac_stream.md R257). -/
abbrev StreamClockInv (s : State) : Prop := s.act.active = true → s.act.last ≤ s.clk.cyc

/-- Stopped is a state with `RUNNING = 0` (10_state.md R42). -/
abbrev ModeInv (s : State) : Prop := s.stopped = true → s.status.running = false

/-- A valid `PSGLOW` is a frequency latch byte, and while the last latch byte selected a frequency register it is
the one of channel `PSGCH` (42_cmd_chip_writes.md R184, R186). -/
abbrev PsgLowInv (s : State) : Prop :=
  s.trk.psgLowV = true →
    psgIsLatch s.trk.psgLow = true ∧ psgIsAtt s.trk.psgLow = false ∧
      (s.trk.psgType = false → psgChannel s.trk.psgLow = s.trk.psgCh)

/-- The invariant of the machine's registers and queues. -/
abbrev RegInv (s : State) : Prop :=
  Memory.wf s = true ∧ ClockInv s ∧ PsgAttInv s ∧ PsgLowInv s ∧ PoolInv s ∧ StreamClockInv s ∧ ModeInv s

/-- The next clock advance does not carry CYC past 64 bits, where the spec states no result (46_scheduler.md R291,
log 7). -/
abbrev NoCycOverflow (s : State) : Prop := s.clk.cyc.toNat + (s.hwcc - s.clk.lastHw).toNat < 2 ^ 64

/-- Every pan write among the events closes both outputs (41_mix_engine.md R169). -/
def PanSilent : List ChipEvent → Prop
  | .fmAddr p r :: .fmData q v :: rest =>
    (p = q → 0xB4 ≤ r → r ≤ 0xB6 → v &&& 0xC0 = 0) ∧ PanSilent rest
  | _ :: rest => PanSilent rest
  | [] => True

/-- Every attenuation latch byte among the events has attenuation 15 (41_mix_engine.md R169). -/
def AttSilent (evs : List ChipEvent) : Prop :=
  ∀ v : Byte, ChipEvent.psgByte v ∈ evs → psgIsLatch v = true → psgIsAtt v = true → v &&& 0x0F = 0x0F

/-- The FM write command of a port: `FMW0` or `FMW1` (42_cmd_chip_writes.md R188, R189). -/
def fmw (port : Bool) (reg val : Byte) : Instr := if port then .fmw1 reg val else .fmw0 reg val

/-- `i` is a pure wait command of `W` samples (43_cmd_waits.md R221 to R224, R227). -/
def WaitOf (i : Instr) (W : U32) : Prop :=
  (∃ n : BitVec 16, i = .wait n ∧ W = n.setWidth 32) ∨ (i = .wait60 ∧ W = 735) ∨ (i = .wait50 ∧ W = 882) ∨
    (∃ n : Nat, 1 ≤ n ∧ n ≤ 16 ∧ i = .waits n ∧ W = BitVec.ofNat 32 n)

/-- `i` is one of the two forms of stream start (44_cmd_dac_stream.md R246, R247). -/
def StreamStartForm (i : Instr) : Prop :=
  (∃ sid a m l, i = .strstart sid a m l) ∨ (∃ sid b f, i = .strfast sid b f)

/-- The clock registers after `SetFirstWait(now)` inside a wait of `W` samples (41_mix_engine.md R168,
43_cmd_waits.md R220). -/
def firstWaitClock (s : State) (W : U32) : Clock :=
  { s.clk with fwSeen := true, cyc := 0, lastHw := s.hwcc, sample := 0, nextDue := s.clk.nextDue + W }

/-- `ACT` after a re-baseline of the clock to `c` (41_mix_engine.md R168, 60_exceptions.md R326). -/
def rebasedStream (a : ActiveStream) (c : U64) : ActiveStream := if a.active then { a with last := c } else a

/-- The events of an `UpdateMuting()` pass in the state `s` (41_mix_engine.md R166). -/
def updateMutingEvents (s : State) : List ChipEvent :=
  mutingEvents (fun i => s.fmPanOut i false) (fun c => s.psgAttOut c false)

end Sys2Proof.Machine
end

