-- ==== Sys2Proof/Certificates/Slice0/Obligations.lean ====
section
/-! DEFINITION. The statements for the provers. Each docstring names the rules of spec/ it formalises. A statement
about a next state names every field that may differ: `t = { s with … }` says that every other register, queue and
output is unchanged. -/

section

open Sys2Proof Sys2Proof.Machine Host

/-! ### Encoding -/

/-- 30_encoding.md R112: the bytes of a well-formed command decode to it, whatever follows. Rests on the spec's own
decisions D2, D37 (92_eei_decisions.md). -/
def Obligations.DecodeInvertsEncode : Prop :=
  ∀ (i : Instr) (rest : List Byte), i.isCommand = true → i.wellFormed = true →
    decode (encode i ++ rest) = .ok (i, (encode i).length)

/-- 30_encoding.md R105, R112: what decodes is a well-formed command, and its bytes are the encoder's. Rests on the
spec's own decisions D2, D37 (92_eei_decisions.md). -/
def Obligations.EncodeInvertsDecode : Prop :=
  ∀ (bs : List Byte) (i : Instr) (n : Nat), decode bs = .ok (i, n) →
    i.isCommand = true ∧ i.wellFormed = true ∧ n = (encode i).length ∧ bs = encode i ++ bs.drop n

/-- 30_encoding.md R105: the verdict depends on the head byte and the number of bytes alone. Rests on the spec's own
decisions D2, D23 (92_eei_decisions.md). -/
def Obligations.DecodeVerdictByHeadByte : Prop :=
  ∀ (op : Byte) (rest : List Byte),
    (cmdLen op = 0 → decode (op :: rest) = .error (.unknownOpcode op)) ∧
    (cmdLen op ≠ 0 → (op :: rest).length < cmdLen op → decode (op :: rest) = .error (.truncated op)) ∧
    (cmdLen op ≠ 0 → cmdLen op ≤ (op :: rest).length →
      ∃ i, i.isCommand = true ∧ decode (op :: rest) = .ok (i, cmdLen op))

/-- 30_encoding.md R109: 15 single-value opcodes, 32 opcodes of the two families, 209 unknown bytes. The counts are
the spec's derived ones, over the opcode bytes of its decision D2 (92_eei_decisions.md). -/
def Obligations.OpcodeCounts : Prop :=
  (∀ op : Byte, opHigh op ≠ 0x7 → opHigh op ≠ 0x8 →
    (cmdLen op ≠ 0 ↔ op ∈ ([0x4F, 0x50, 0x52, 0x53, 0x61, 0x62, 0x63, 0x66, 0x90, 0x91, 0x92, 0x93, 0x94, 0x95,
      0xB2] : List Byte))) ∧
  ((List.range 256).filter fun n => 0x70 ≤ n ∧ n ≤ 0x8F ∧ cmdLen (BitVec.ofNat 8 n) ≠ 0).length = 32 ∧
  ((List.range 256).filter fun n => cmdLen (BitVec.ofNat 8 n) ≠ 0).length = 47 ∧
  ((List.range 256).filter fun n => cmdLen (BitVec.ofNat 8 n) = 0).length = 209

/-- 30_encoding.md R106, R102, R112: words written out from the encoding tables. Rests on the spec's own decisions D2,
D3, D42 (92_eei_decisions.md). -/
def Obligations.DecodedSpecWords : Prop :=
  decode [0x61, 0x10, 0x00] = .ok (.wait 16, 3) ∧
  decode [0x50, 0x9F] = .ok (.psgw 0x9F, 2) ∧
  decode [0x53, 0xB5, 0x9B] = .ok (.fmw1 0xB5 0x9B, 3) ∧
  decode [0x7F] = .ok (.waits 16, 1) ∧
  decode [0x80] = .ok (.dacw 0, 1) ∧
  decode [0x92, 0x07, 0x44, 0xAC, 0x00, 0x00] = .ok (.strfreq 7 44100, 6) ∧
  decode [0x66] = .ok (.endStream, 1) ∧
  decode [0x51, 0x22, 0x00] = .error (.unknownOpcode 0x51) ∧
  decode [0x61, 0x10] = .error (.truncated 0x61)

/-- 30_encoding.md R111: each request is one bit of REQ, and the lowest-numbered set bit is the one serviced. Rests on
the spec's own decision D26 (92_eei_decisions.md). -/
def Obligations.RequestBits : Prop :=
  (∀ i : Instr, i.isCommand = false → decodeReq (encodeReq i) = some i) ∧
  encodeReq .start = 1 <<< 0 ∧ encodeReq .updmute = 1 <<< 1 ∧ encodeReq .reset = 1 <<< 2 ∧
  encodeReq .stop = 1 <<< 3 ∧ encodeReq .resume = 1 <<< 4 ∧
  (∀ r : Req, decodeReq r.word =
    if r.start then some .start
    else if r.updMute then some .updmute
    else if r.reset then some .reset
    else if r.stop then some .stop
    else if r.resume then some .resume
    else none)

/-! ### The tick -/

/-- 46_scheduler.md R283, R285, R287: where a command is due and its bytes are at the head of CMDQ, a step takes the
bytes, runs the decoded instruction, then the DAC tick if still running, then what the other agents do. Rests on the
spec's own decisions D22, D23, D51 (92_eei_decisions.md); what happens between ticks is the model's choice (logs 2,
3). -/
def Obligations.StepRunsDecodedCommand : Prop :=
  ∀ (s : State) (i : Instr) (n : Nat), s.setupOk = true → decodeReq s.req.word = none →
    s.status.running = true → (clockAdvance s).due = true → decode s.cmdq = .ok (i, n) →
    step s =
      andThen
        (andThen
          (exec i
            { clockAdvance s with
              fault := { code := 0, info := 0 }
              cmdq := s.cmdq.drop n
              cmdPc := s.cmdPc + BitVec.ofNat 32 n
              status := { s.status with cmdUnderrun := false } })
          fun u => .next (if u.status.running then dacTick u else u))
        betweenTicks

/-- 60_exceptions.md R320, 46_scheduler.md R283, R289: a pending request is the whole work of the tick; an idle tick
only clears FAULT. Rests on the spec's own decisions D41, D44, D51 (92_eei_decisions.md); what happens between ticks
is the model's choice (logs 2, 3). -/
def Obligations.StepServicesRequestOrIdles : Prop :=
  ∀ s : State, s.setupOk = true →
    (∀ i : Instr, decodeReq s.req.word = some i →
      step s = andThen (exec i { s with fault := { code := 0, info := 0 } }) betweenTicks) ∧
    (decodeReq s.req.word = none → s.status.running = false →
      step s = betweenTicks { s with fault := { code := 0, info := 0 } })

/-- 46_scheduler.md R282, R286, R285: a Running tick in which no command is due advances the clock, then does the DAC
tick. Rests on the spec's own decisions D19, D21, D22 (92_eei_decisions.md). -/
def Obligations.RunningTickWithNothingDue : Prop :=
  ∀ s : State, decodeReq s.req.word = none → s.status.running = true → NoCycOverflow s →
    ∃ c : U64,
      c.toNat = s.clk.cyc.toNat + (s.hwcc - s.clk.lastHw).toNat ∧
      (BitVec.ofNat 32 (c.toNat / s.cfg.cps) < s.clk.nextDue →
        tick s =
          .next
            (dacTick
              { s with
                fault := { code := 0, info := 0 }
                clk :=
                  { s.clk with
                    lastHw := s.hwcc
                    cyc := c
                    sample := BitVec.ofNat 32 (c.toNat / s.cfg.cps) } }))

/-- 46_scheduler.md R295: a due command whose bytes are not all there raises the underrun, consumes nothing, moves no
due time, and stays due. Rests on the spec's own decisions D23, D24, D36 (92_eei_decisions.md). -/
def Obligations.CommandUnderrun : Prop :=
  ∀ s : State, decodeReq s.req.word = none → s.status.running = true → (clockAdvance s).due = true →
    (s.cmdq = [] ∨ ∃ op rest, s.cmdq = op :: rest ∧ cmdLen op ≠ 0 ∧ s.cmdq.length < cmdLen op) →
    ∃ t, tick s = .next t ∧
      t = dacTick
        { clockAdvance s with
          fault := { code := 0, info := 0 }
          status := { s.status with cmdUnderrun := true }
          log := s.log ++ [{ code := 1, info := BitVec.ofNat 32 s.cmdq.length }] } ∧
      t.status = { s.status with cmdUnderrun := true } ∧ t.cmdq = s.cmdq ∧ t.cmdPc = s.cmdPc ∧
      t.clk = (clockAdvance s).clk ∧ t.due = true

/-- 45_cmd_control.md R274: an unknown opcode byte drives FAULT and is logged; nothing is consumed, nothing else is
written, and the DAC tick still runs. R272, R273: the unsupported commands GGST and PWM are no error and only log.
Rests on the spec's own decisions D2, D25, D36 (92_eei_decisions.md). -/
def Obligations.UnknownOpcode : Prop :=
  (∀ (s : State) (op : Byte) (rest : List Byte), decodeReq s.req.word = none → s.status.running = true →
    (clockAdvance s).due = true → s.cmdq = op :: rest → cmdLen op = 0 →
    ∃ t, tick s = .next t ∧
      t = dacTick
        { clockAdvance s with
          fault := { code := 3, info := op }
          log := s.log ++ [{ code := 3, info := op.setWidth 32 }] } ∧
      t.fault = { code := 3, info := op } ∧ t.cmdq = s.cmdq ∧ t.cmdPc = s.cmdPc ∧ t.mix = s.mix ∧
      t.status = s.status ∧ t.clk.nextDue = s.clk.nextDue ∧ t.due = true) ∧
  (∀ (v : Byte) (s : State), exec (.ggst v) s = .next { s with log := s.log ++ [{ code := 0x11, info := 0x4F }] }) ∧
  (∀ (a d : Byte) (s : State), exec (.pwm a d) s = .next { s with log := s.log ++ [{ code := 0x11, info := 0xB2 }] })

/-- 60_exceptions.md R316: with `SETUP_OK` false the block never ticks; the model's fault says so (log 5). Rests on
the spec's own decision D50 (92_eei_decisions.md), in the form the model gives it (log 5). -/
def Obligations.SetupFailureNeverTicks : Prop :=
  ∀ s : State, s.setupOk = false → step s = .fault .setupFailure

/-- 30_encoding.md R107: a tick that fetches a command advances CMDPC by the length of its opcode and takes those
bytes from CMDQ; no other tick moves either. When a tick fetches is 46_scheduler.md R283, R285 to R287. Rests on the
spec's own decisions D23, D25, D41, D47 (92_eei_decisions.md). -/
def Obligations.CmdPcCountsConsumedBytes : Prop :=
  ∀ s t : State, tick s = .next t →
    (∀ op rest i n, s.cmdq = op :: rest → decode s.cmdq = .ok (i, n) → decodeReq s.req.word = none →
      s.status.running = true → (clockAdvance s).due = true →
      t.cmdPc = s.cmdPc + BitVec.ofNat 32 (cmdLen op) ∧ t.cmdq = s.cmdq.drop (cmdLen op)) ∧
    ((decodeReq s.req.word ≠ none ∨ s.status.running = false ∨ (clockAdvance s).due = false ∨
        ∀ i n, decode s.cmdq ≠ .ok (i, n)) →
      t.cmdPc = s.cmdPc ∧ t.cmdq = s.cmdq)

/-- 46_scheduler.md R290: BUS only grows, by at most 68 frames in a tick; by 54, 54, 54, 14 and 0 frames in a tick
that services Update-muting, Stop, Resume, Reset and Start. The bounds are derived by the spec; they rest on its
decisions D7, D12 (92_eei_decisions.md). -/
def Obligations.TickFrameBudget : Prop :=
  ∀ s t : State, tick s = .next t →
    ∃ fs, t.ser.bus = s.ser.bus ++ fs ∧ fs.length ≤ 68 ∧
      ((decodeReq s.req.word = some .updmute ∨ decodeReq s.req.word = some .stop ∨
        decodeReq s.req.word = some .resume) → fs.length = 54) ∧
      (decodeReq s.req.word = some .reset → fs.length = 14) ∧
      (decodeReq s.req.word = some .start → fs.length = 0) ∧
      (decodeReq s.req.word = none → s.status.running = false → fs.length = 0)

/-- 60_exceptions.md R319: a tick logs at most one of E1 to E4, L1, L2, then at most one L3; a tick that services a
request logs nothing. The order is derived by the spec; the codes are its decisions D36, D40 (92_eei_decisions.md). -/
def Obligations.TickLogOrder : Prop :=
  ∀ s t : State, tick s = .next t →
    ∃ a b, t.log = s.log ++ a ++ b ∧ a.length ≤ 1 ∧ b.length ≤ 1 ∧
      (∀ e ∈ a, e.code ∈ ([1, 2, 3, 4, 0x11, 0x12] : List Byte)) ∧ (∀ e ∈ b, e.code = 0x13) ∧
      (decodeReq s.req.word ≠ none → a = [] ∧ b = [])

/-- 30_encoding.md R108, 60_exceptions.md R321: none of the instructions fails once it is fetched or polled. Rests on
the spec's own decision D27 (92_eei_decisions.md). -/
def Obligations.EveryInstructionCompletes : Prop :=
  ∀ (i : Instr) (s : State), ∃ t, exec i s = .next t

/-! ### Invariants and reset -/

/-- 10_state.md R25, R36, R42, R45, R46, R48; 42_cmd_chip_writes.md R186; 44_cmd_dac_stream.md R257: every step keeps
the register invariant. The premise on CYC is 46_scheduler.md R291, which states no result past 64 bits. Rests on the
spec's own decisions D15, D19, D20, D35 (92_eei_decisions.md); the premise on CYC is log 7. -/
def Obligations.StepKeepsRegisters : Prop :=
  ∀ s t : State, s.cfg.Wf → NoCycOverflow s → RegInv s → step s = .next t → RegInv t

/-- 40_bus_serializer.md R143, R148: between ticks selects, strobe and reset are released, and every frame keeps the
bus invariants. The invariants are derived by the spec, from its decisions D4, D7 (92_eei_decisions.md). -/
def Obligations.StepKeepsBusLegal : Prop :=
  ∀ s t : State, s.cfg.rev.Wf → SerInv s.cfg.rev s.ser → step s = .next t →
    t.cfg = s.cfg ∧ SerInv t.cfg.rev t.ser

/-- The state after reset meets the premises of the two invariants above. Rests on the spec's own decisions D38, D49
(92_eei_decisions.md), and on log 1. -/
def Obligations.ResetMeetsInvariants : Prop :=
  State.reset.cfg.Wf ∧ RegInv State.reset ∧ SerInv State.reset.cfg.rev State.reset.ser ∧ NoCycOverflow State.reset

/-- 70_reset_and_hazards.md R361: setup sends the idle frame and the frames of ResetChips, 15 in all, leaves every
register at its power-on value, and the invariants hold, under every well-formed configuration. Rests on the spec's
own decisions D38, D50 (92_eei_decisions.md). -/
def Obligations.SetupForEveryConfiguration : Prop :=
  ∀ cfg : Cfg, cfg.Wf →
    (setup cfg true).ser.bus.length = 15 ∧
    (setup cfg true).ser.bus.head? = some { ctrl := idleCtrl cfg.rev, data := 0 } ∧
    chipEvents cfg.rev (setup cfg true).ser.bus = resetEvents ∧
    setup cfg true = { powerOn cfg with ser := (setup cfg true).ser } ∧
    RegInv (setup cfg true) ∧ SerInv cfg.rev (setup cfg true).ser

/-- 10_state.md R52: the two columns of the reset table, power-on and after the tick that services Start. Rests on the spec's own decisions D28, D38
(92_eei_decisions.md). -/
def Obligations.ResetTable : Prop :=
  (∀ cfg : Cfg,
    (powerOn cfg).ser = { latch := { ctrl := idleCtrl cfg.rev, data := 0x00 }, bus := [] } ∧
    (powerOn cfg).mix.fmPan = Vector.replicate 6 0xC0 ∧ (powerOn cfg).mix.fmAlg = Vector.replicate 6 0 ∧
    (powerOn cfg).mix.psgAtt = #v[0x9F, 0xBF, 0xDF, 0xFF] ∧
    (powerOn cfg).trk =
      { psgCh := 0, psgType := false, psgLow := 0, psgLowV := false, dacEn := false, dacAcc := 0, dacCnt := 0 } ∧
    (powerOn cfg).cmdPc = 0 ∧
    (powerOn cfg).ctl = { fmMask := 0x7F, psgMask := 0xF, forceMono := false, trimEn := false, freqFix := false } ∧
    (powerOn cfg).clk = { lastHw := 0, cyc := 0, sample := 0, nextDue := 0, fwSeen := false, paused := 0 } ∧
    (powerOn cfg).req.word = 0 ∧
    (powerOn cfg).status =
      { running := false, finished := false, resetAck := false, cmdUnderrun := false, pcmUnderrun := false } ∧
    (powerOn cfg).stopped = false ∧ (powerOn cfg).fault = { code := 0, info := 0 } ∧
    (powerOn cfg).seq = 0 ∧ (powerOn cfg).lastSeq = 0 ∧
    (powerOn cfg).act =
      { active := false, slot := 0, rate := 0, port := 0, reg := 0, mode := .byLength, len := 0, last := 0 } ∧
    (powerOn cfg).slots =
      List.replicate cfg.nSlots
        { sequence := 0, free := true, queue := [], sampleRateHz := 0, chipPort := 0, chipRegister := 0,
          lengthMode := .byLength, declaredLength := 0, playedCount := 0 } ∧
    (powerOn cfg).cmdq = [] ∧ (powerOn cfg).pcmq = [] ∧
    (powerOn cfg).activity = Vector.replicate 10 { kon := false, param := false, dac := false } ∧
    (powerOn cfg).log = []) ∧
  (∀ s : State, decodeReq s.req.word = some .start → ∃ t, tick s = .next t ∧
    t.fault = { code := 0, info := 0 } ∧ t.ser = s.ser ∧ t.mix = (powerOn s.cfg).mix ∧ t.trk = (powerOn s.cfg).trk ∧ t.cmdPc = s.cmdPc ∧ t.ctl = s.ctl ∧
    t.clk = { (powerOn s.cfg).clk with lastHw := s.hwcc } ∧ t.req = { s.req with start := false } ∧
    t.status =
      { running := true, finished := false, resetAck := s.status.resetAck, cmdUnderrun := false,
        pcmUnderrun := false } ∧
    t.stopped = false ∧ t.seq = 0 ∧ t.lastSeq = 0 ∧ t.act = (powerOn s.cfg).act ∧ t.slots = s.slots ∧
    t.cmdq = s.cmdq ∧ t.pcmq = s.pcmq ∧ t.activity = s.activity ∧ t.log = s.log)

/-! ### PSGW -/

/-- 42_cmd_chip_writes.md R183, with R182 and R187: an attenuation latch byte. The two tracking registers follow the
spec's decision D14, the place of the flag its decision D39 (92_eei_decisions.md). -/
def Obligations.PsgwAttenuationLatch : Prop :=
  ∀ (s : State) (v : Byte), BusReady s → psgIsLatch v = true → psgIsAtt v = true →
    ∃ t, exec (.psgw v) s = .next t ∧
      t.psgAttAt (psgChannel v) = v ∧ (∀ c, c ≠ psgChannel v → t.psgAttAt c = s.psgAttAt c) ∧
      t.trk = { s.trk with psgCh := psgChannel v, psgType := true } ∧
      t.activityAt (psgVoice (psgChannel v)) =
        { s.activityAt (psgVoice (psgChannel v)) with kon := decide (psgNibble v ≠ 0xF) } ∧
      (∀ k, k ≠ psgVoice (psgChannel v) → t.activityAt k = s.activityAt k) ∧
      Sends s t
        [.psgByte (if s.armed = true ∨ s.ctl.psgMask.getLsbD (psgChannel v).toNat = false then v ||| 0x0F else v)] ∧
      t =
        { s with
          ser := t.ser
          trk := t.trk
          activity := t.activity
          mix := { s.mix with psgAtt := t.mix.psgAtt } }

/-- 42_cmd_chip_writes.md R184, with R182: a frequency or noise latch byte. Rests on the spec's own decisions D14, D15
(92_eei_decisions.md). -/
def Obligations.PsgwFrequencyLatch : Prop :=
  ∀ (s : State) (v : Byte), BusReady s → psgIsLatch v = true → psgIsAtt v = false →
    ∃ t, exec (.psgw v) s = .next t ∧
      t.trk =
        { s.trk with
          psgCh := psgChannel v
          psgType := false
          psgLow := if psgChannel v ≠ 3 then v else s.trk.psgLow
          psgLowV := decide (psgChannel v ≠ 3) } ∧
      Sends s t [.psgByte v] ∧
      t = { s with ser := t.ser, trk := t.trk }

/-- 42_cmd_chip_writes.md R185, with R187: a data byte after an attenuation latch byte. Rests on the spec's own
decisions D14, D39 (92_eei_decisions.md). -/
def Obligations.PsgwAttenuationData : Prop :=
  ∀ (s : State) (v : Byte), BusReady s → psgIsLatch v = false → s.trk.psgType = true →
    ∃ t, exec (.psgw v) s = .next t ∧
      t.psgAttAt s.trk.psgCh = psgAttByte s.trk.psgCh (psgNibble v) ∧
      (∀ c, c ≠ s.trk.psgCh → t.psgAttAt c = s.psgAttAt c) ∧
      t.activityAt (psgVoice s.trk.psgCh) =
        { s.activityAt (psgVoice s.trk.psgCh) with kon := decide (psgNibble v ≠ 0xF) } ∧
      (∀ k, k ≠ psgVoice s.trk.psgCh → t.activityAt k = s.activityAt k) ∧
      Sends s t
        [.psgByte
          (if s.armed = true ∨ s.ctl.psgMask.getLsbD s.trk.psgCh.toNat = false
            then psgAttByte s.trk.psgCh (psgNibble v) ||| 0x0F
            else psgAttByte s.trk.psgCh (psgNibble v))] ∧
      t = { s with ser := t.ser, activity := t.activity, mix := { s.mix with psgAtt := t.mix.psgAtt } }

/-- 42_cmd_chip_writes.md R186: a data byte after a frequency latch byte, with the frequency fix. Rests on the spec's
own decisions D14, D15 (92_eei_decisions.md). -/
def Obligations.PsgwFrequencyData : Prop :=
  ∀ (s : State) (v : Byte), BusReady s → psgIsLatch v = false → s.trk.psgType = false →
    ∃ t, exec (.psgw v) s = .next t ∧
      (if s.ctl.freqFix = true ∧ s.trk.psgLowV = true ∧ s.trk.psgCh ≠ 3 ∧ s.trk.psgLow &&& 0x0F = 0 ∧
          v &&& 0x3F = 0
        then
          t.trk = { s.trk with psgLow := s.trk.psgLow ||| 0x01 } ∧
            Sends s t [.psgByte (s.trk.psgLow ||| 0x01), .psgByte v]
        else t.trk = s.trk ∧ Sends s t [.psgByte v]) ∧
      t = { s with ser := t.ser, trk := t.trk }

/-! ### FMW0 and FMW1 -/

/-- 42_cmd_chip_writes.md R191, 20_memory.md R84: a pan write of FM index `i`. -/
def Obligations.FmwPan : Prop :=
  ∀ (s : State) (i : Fin 6) (val : Byte), BusReady s →
    ∃ t, exec (fmw (decide (3 ≤ i.val)) (0xB4 + BitVec.ofNat 8 (i.val % 3)) val) s = .next t ∧
      t.fmPanAt i = val ∧ (∀ j, j ≠ i → t.fmPanAt j = s.fmPanAt j) ∧
      Sends s t
        (fmEvents (portByte (decide (3 ≤ i.val))) (0xB4 + BitVec.ofNat 8 (i.val % 3)) (t.fmPanOut i false)) ∧
      t = { s with ser := t.ser, mix := { s.mix with fmPan := t.mix.fmPan } }

/-- 42_cmd_chip_writes.md R193, R194: an algorithm write of FM index `i`. Rests on the spec's own decision D16
(92_eei_decisions.md). -/
def Obligations.FmwAlgorithm : Prop :=
  ∀ (s : State) (i : Fin 6) (val : Byte), BusReady s →
    ∃ t, exec (fmw (decide (3 ≤ i.val)) (0xB0 + BitVec.ofNat 8 (i.val % 3)) val) s = .next t ∧
      t.fmAlgAt i = val.extractLsb' 0 3 ∧ (∀ j, j ≠ i → t.fmAlgAt j = s.fmAlgAt j) ∧
      t.activityAt (fmVoice i) = { s.activityAt (fmVoice i) with param := true } ∧
      (∀ k, k ≠ fmVoice i → t.activityAt k = s.activityAt k) ∧
      Sends s t (fmEvents (portByte (decide (3 ≤ i.val))) (0xB0 + BitVec.ofNat 8 (i.val % 3)) val) ∧
      t = { s with ser := t.ser, activity := t.activity, mix := { s.mix with fmAlg := t.mix.fmAlg } }

/-- 42_cmd_chip_writes.md R195 and the table of R196: the key-on register. Rests on the spec's own decision D17
(92_eei_decisions.md). -/
def Obligations.FmwKeyOn : Prop :=
  (([0, 1, 2, 3, 4, 5, 6, 7] : List (BitVec 3)).map carrier =
    [0b1000, 0b1000, 0b1000, 0b1000, 0b1010, 0b1110, 0b1110, 0b1111]) ∧
  ∀ (s : State) (val : Byte), BusReady s →
    ∃ t, exec (.fmw0 0x28 val) s = .next t ∧
      (∀ i : Fin 6, (val &&& 7).toNat = (if i.val < 3 then i.val else i.val + 1) →
        t.activityAt (fmVoice i) =
          { s.activityAt (fmVoice i) with
            kon := decide (val.extractLsb' 4 4 &&& carrier (s.fmAlgAt i) ≠ 0) } ∧
        ∀ k, k ≠ fmVoice i → t.activityAt k = s.activityAt k) ∧
      ((val &&& 7 = 3 ∨ val &&& 7 = 7) → t.activity = s.activity) ∧
      Sends s t (fmEvents 0 0x28 val) ∧
      t = { s with ser := t.ser, activity := t.activity }

/-- 42_cmd_chip_writes.md R197: the DAC enable register, then the pan of FM index 5 under the new `DACEN`. Rests on
the spec's own decisions D10, D46 (92_eei_decisions.md). -/
def Obligations.FmwDacEnable : Prop :=
  ∀ (s : State) (val : Byte), BusReady s →
    ∃ t, exec (.fmw0 0x2B val) s = .next t ∧
      t.trk = { s.trk with dacEn := val.getLsbD 7 } ∧
      t.activityAt 5 = { s.activityAt 5 with dac := val.getLsbD 7 } ∧
      (∀ k, k ≠ 5 → t.activityAt k = s.activityAt k) ∧
      Sends s t (fmEvents 0 0x2B val ++ fmEvents 1 0xB6 (t.fmPanOut 5 false)) ∧
      t = { s with ser := t.ser, trk := t.trk, activity := t.activity }

/-- 42_cmd_chip_writes.md R199: the DAC data register feeds the statistic and is transmitted unchanged. Rests on the
spec's own decisions D18, D45 (92_eei_decisions.md). -/
def Obligations.FmwDacData : Prop :=
  ∀ (s : State) (val : Byte), BusReady s →
    ∃ t, exec (.fmw0 0x2A val) s = .next t ∧
      t.trk.dacAcc.toNat =
        (s.trk.dacAcc.toNat + (if 0x80 ≤ val.toNat then val.toNat - 0x80 else 0x80 - val.toNat)) % 2 ^ 32 ∧
      t.trk.dacCnt.toNat = (s.trk.dacCnt.toNat + 1) % 2 ^ 32 ∧
      t.trk = { s.trk with dacAcc := t.trk.dacAcc, dacCnt := t.trk.dacCnt } ∧
      Sends s t (fmEvents 0 0x2A val) ∧
      t = { s with ser := t.ser, trk := t.trk }

/-- 42_cmd_chip_writes.md R200, 20_memory.md R84: the other per-channel registers. Rests on the spec's own decision
D16 (92_eei_decisions.md). -/
def Obligations.FmwChannelParameter : Prop :=
  ∀ (s : State) (port : Bool) (reg val : Byte) (i : Fin 6), BusReady s → 0x30 ≤ reg → reg ≤ 0xAF →
    (reg &&& 3).toNat ≠ 3 → i.val = 3 * port.toNat + (reg &&& 3).toNat →
    ∃ t, exec (fmw port reg val) s = .next t ∧
      t.activityAt (fmVoice i) = { s.activityAt (fmVoice i) with param := true } ∧
      (∀ k, k ≠ fmVoice i → t.activityAt k = s.activityAt k) ∧
      Sends s t (fmEvents (portByte port) reg val) ∧
      t = { s with ser := t.ser, activity := t.activity }

/-- 42_cmd_chip_writes.md R201, 20_memory.md R84: every other register is transmitted and nothing else happens. Rests
on the spec's own decision D16 (92_eei_decisions.md). -/
def Obligations.FmwOther : Prop :=
  ∀ (s : State) (port : Bool) (reg val : Byte), BusReady s →
    ¬(0xB4 ≤ reg ∧ reg ≤ 0xB6) → ¬(0xB0 ≤ reg ∧ reg ≤ 0xB2) →
    ¬(port = false ∧ (reg = 0x28 ∨ reg = 0x2A ∨ reg = 0x2B)) →
    ¬(0x30 ≤ reg ∧ reg ≤ 0xAF ∧ reg &&& 3 ≠ 3) →
    ∃ t, exec (fmw port reg val) s = .next t ∧
      Sends s t (fmEvents (portByte port) reg val) ∧
      t = { s with ser := t.ser }

/-- 42_cmd_chip_writes.md R192, 20_memory.md R85: only a pan write can go out changed, in bits 7:6 only; only the DAC
enable write is followed by a second write, of a pan register. Rests on the spec's own decisions D11, D46
(92_eei_decisions.md). -/
def Obligations.OnlyPanValuesDiffer : Prop :=
  ∀ (s : State) (port : Bool) (reg val : Byte), BusReady s →
    ∃ t w extra, exec (fmw port reg val) s = .next t ∧
      Sends s t (fmEvents (portByte port) reg w ++ extra) ∧
      (¬(0xB4 ≤ reg ∧ reg ≤ 0xB6) → w = val) ∧
      w &&& 0x3F = val &&& 0x3F ∧
      (extra = [] ∨ (port = false ∧ reg = 0x2B ∧ ∃ p, extra = fmEvents 1 0xB6 p))

/-! ### MIX -/

/-- 41_mix_engine.md R162, R163, R164, with R161: the byte transmitted for a channel, step by step. The DAC-mode mask
bit and what counts as armed are the spec's decisions D10, D13 (92_eei_decisions.md). -/
def Obligations.MultiplexerOutputs : Prop :=
  (∀ (s : State) (i : Fin 6) (force : Bool),
    s.fmPanOut i force =
      (let mask := if i.val = 5 ∧ s.trk.dacEn = true then s.ctl.fmMask.getLsbD 6 else s.ctl.fmMask.getLsbD i.val
       let armed := s.ctl.trimEn = true ∧ s.clk.fwSeen = false
       let p := if force = true ∨ armed ∨ mask = false then s.fmPanAt i &&& 0x3F else s.fmPanAt i
       if s.ctl.forceMono = true ∧ p &&& 0xC0 ≠ 0 then p ||| 0xC0 else p)) ∧
  (∀ (s : State) (c : BitVec 2) (force : Bool),
    s.psgAttOut c force =
      (let armed := s.ctl.trimEn = true ∧ s.clk.fwSeen = false
       if force = true ∨ armed ∨ s.ctl.psgMask.getLsbD c.toNat = false then s.psgAttAt c ||| 0x0F
       else s.psgAttAt c))

/-- 41_mix_engine.md R167: an Update-muting pass is a function of caches and controls alone. Two ready machines that
agree on them send the same 54 frames, whatever their latches hold. The frame-level part is derived by the spec, from
its decisions D7, D12 (92_eei_decisions.md). -/
def Obligations.MutingPassIsAFunction : Prop :=
  ∀ s r : State, BusReady s → BusReady r → s.cfg.rev = r.cfg.rev → s.mix = r.mix → s.ctl = r.ctl →
    s.trk.dacEn = r.trk.dacEn → s.clk.fwSeen = r.clk.fwSeen →
    ∃ fs t u, fs.length = 54 ∧ exec .updmute s = .next t ∧ exec .updmute r = .next u ∧
      t.ser.bus = s.ser.bus ++ fs ∧ u.ser.bus = r.ser.bus ++ fs ∧ t.ser.latch = u.ser.latch

/-- 41_mix_engine.md R170: after passes under any controls, a pass with every channel passed, no mono and no
mitigation transmits the cached bytes unchanged. Derived by the spec from its multiplexer rules; it rests on its
decisions D10, D12 (92_eei_decisions.md). -/
def Obligations.UnmutingRestoresCaches : Prop :=
  ∀ (s : State) (c : Controls), BusReady s → c.fmMask = 0x7F → c.psgMask = 0xF → c.forceMono = false →
    (c.trimEn = false ∨ s.clk.fwSeen = true) →
    ∃ t u, exec .updmute s = .next t ∧ exec .updmute { t with ctl := c } = .next u ∧
      Sends t u (mutingEvents s.fmPanAt s.psgAttAt) ∧ u.mix = s.mix

/-- 41_mix_engine.md R169: while trim mitigation is armed, every pan byte and every PSG attenuation byte an
instruction transmits is silent, whatever the masks. Rests on the spec's own decisions D11, D13, D14
(92_eei_decisions.md). -/
def Obligations.TrimMitigationSilences : Prop :=
  ∀ (i : Instr) (s : State), BusReady s → PsgLowInv s → s.ctl.trimEn = true → s.clk.fwSeen = false →
    ∃ t, exec i s = .next t ∧
      (t.clk.fwSeen = false → ∃ evs, Sends s t evs ∧ PanSilent evs ∧ AttSilent evs)

/-! ### Waits -/

/-- 43_cmd_waits.md R220 to R224, R228: a wait of zero, or after the first nonzero one, moves NEXTDUE and nothing
else. Rests on the spec's own decisions D3, D13 (92_eei_decisions.md). -/
def Obligations.LaterWaits : Prop :=
  ∀ (i : Instr) (W : U32) (s : State), WaitOf i W → (W = 0 ∨ s.clk.fwSeen = true) →
    exec i s = .next { s with clk := { s.clk with nextDue := s.clk.nextDue + W } }

/-- 41_mix_engine.md R168: the first nonzero wait re-baselines the clock and reveals the true mute state. Rests on the
spec's own decisions D3, D13, D20 (92_eei_decisions.md). -/
def Obligations.FirstWait : Prop :=
  ∀ (i : Instr) (W : U32) (s : State), WaitOf i W → W ≠ 0 → s.clk.fwSeen = false → BusReady s →
    ∃ t, exec i s = .next t ∧
      t.clk = firstWaitClock s W ∧ t.act = rebasedStream s.act 0 ∧ t.armed = false ∧
      Sends s t (updateMutingEvents t) ∧ t.ser.bus.length = s.ser.bus.length + 54 ∧
      t = { s with clk := t.clk, act := t.act, ser := t.ser }

/-- 43_cmd_waits.md R225, R226: DACW with and without a PCM byte, as a later wait and as the first nonzero one. Rests
on the spec's own decisions D3, D24 (92_eei_decisions.md). -/
def Obligations.DacwWritesThenWaits : Prop :=
  ∀ (n : BitVec 4) (s : State), BusReady s →
    (∀ b rest, s.pcmq = b :: rest → (n = 0 ∨ s.clk.fwSeen = true) →
      ∃ t, exec (.dacw n) s = .next t ∧ Sends s t (fmEvents 0 0x2A b) ∧
        t =
          { s with
            ser := t.ser
            pcmq := rest
            status := { s.status with pcmUnderrun := false }
            clk := { s.clk with nextDue := s.clk.nextDue + n.setWidth 32 } }) ∧
    (∀ b rest, s.pcmq = b :: rest → n ≠ 0 → s.clk.fwSeen = false →
      ∃ t, exec (.dacw n) s = .next t ∧ Sends s t (fmEvents 0 0x2A b ++ updateMutingEvents t) ∧
        t =
          { s with
            ser := t.ser
            pcmq := rest
            status := { s.status with pcmUnderrun := false }
            clk := firstWaitClock s (n.setWidth 32)
            act := rebasedStream s.act 0 }) ∧
    (s.pcmq = [] → (n = 0 ∨ s.clk.fwSeen = true) →
      exec (.dacw n) s =
        .next
          { s with
            status := { s.status with pcmUnderrun := true }
            log := s.log ++ [{ code := 2, info := 0 }]
            clk := { s.clk with nextDue := s.clk.nextDue + n.setWidth 32 } }) ∧
    (s.pcmq = [] → n ≠ 0 → s.clk.fwSeen = false →
      ∃ t, exec (.dacw n) s = .next t ∧ Sends s t (updateMutingEvents t) ∧
        t =
          { s with
            ser := t.ser
            status := { s.status with pcmUnderrun := true }
            log := s.log ++ [{ code := 2, info := 0 }]
            clk := firstWaitClock s (n.setWidth 32)
            act := rebasedStream s.act 0 })

/-! ### Streams -/

/-- 44_cmd_dac_stream.md R243, R244: the stream setup commands are five bytes long and do nothing. -/
def Obligations.CommandsWithoutChipEffect : Prop :=
  (∀ (sid t p c : Byte) (rest : List Byte),
    decode (0x90 :: sid :: t :: p :: c :: rest) = .ok (.strctl sid t p c, 5)) ∧
  (∀ (sid d l b : Byte) (rest : List Byte),
    decode (0x91 :: sid :: d :: l :: b :: rest) = .ok (.strdata sid d l b, 5)) ∧
  (∀ (sid t p c : Byte) (s : State), exec (.strctl sid t p c) s = .next s) ∧
  (∀ (sid d l b : Byte) (s : State), exec (.strdata sid d l b) s = .next s)

/-- 44_cmd_dac_stream.md R245. Rests on the spec's own decisions D36, D42 (92_eei_decisions.md). -/
def Obligations.StreamRate : Prop :=
  ∀ (sid : Byte) (f : U32) (s : State),
    exec (.strfreq sid f) s =
      .next
        (if s.act.active = true then { s with act := { s.act with rate := f } }
         else { s with log := s.log ++ [{ code := 0x12, info := 0 }] })

/-- 44_cmd_dac_stream.md R248. Rests on the spec's own decisions D30, D31 (92_eei_decisions.md). -/
def Obligations.StreamStop : Prop :=
  ∀ (sid : Byte) (s : State),
    (s.act.active = false → exec (.strstop sid) s = .next s) ∧
    (s.act.active = true →
      ∃ t, exec (.strstop sid) s = .next t ∧ t.act = { s.act with active := false } ∧
        t.slots.length = s.slots.length ∧
        (∀ (k : Nat) (x : Slot), s.slots[k]? = some x →
          t.slots[k]? = some (if k = s.act.slot then { x with free := true } else x)) ∧
        t = { s with act := t.act, slots := t.slots })

/-- 44_cmd_dac_stream.md R249, R246, R247: both forms of stream start, without and with a slot that holds the new
sequence. Rests on the spec's own decisions D31, D36 (92_eei_decisions.md). -/
def Obligations.StreamStart : Prop :=
  ∀ (i : Instr) (s : State), StreamStartForm i →
    ((∀ x ∈ s.slots, x.free = true ∨ x.sequence ≠ s.seq + 1) →
      ∃ t, exec i s = .next t ∧ t.seq = s.seq + 1 ∧ t.log = s.log ++ [{ code := 4, info := s.seq + 1 }] ∧
        t.slots.length = s.slots.length ∧
        (∀ (k : Nat) (x : Slot), s.slots[k]? = some x →
          t.slots[k]? =
            some { x with free := x.free || decide (s.lastSeq < x.sequence ∧ x.sequence < s.seq + 1) }) ∧
        t = { s with seq := t.seq, log := t.log, slots := t.slots }) ∧
    (∀ (m : Nat) (y : Slot), s.slots[m]? = some y → y.free = false → y.sequence = s.seq + 1 →
      (∀ (k : Nat) (x : Slot), k < m → s.slots[k]? = some x → x.free = true ∨ x.sequence ≠ s.seq + 1) →
      ∃ t, exec i s = .next t ∧ t.seq = s.seq + 1 ∧ t.lastSeq = s.seq + 1 ∧
        t.act =
          { active := true, slot := m, rate := y.sampleRateHz, port := y.chipPort, reg := y.chipRegister,
            mode := y.lengthMode, len := y.declaredLength, last := s.clk.cyc } ∧
        t.slots.length = s.slots.length ∧
        (∀ (k : Nat) (x : Slot), s.slots[k]? = some x →
          t.slots[k]? =
            some
              { x with
                free :=
                  x.free || decide (s.lastSeq < x.sequence ∧ x.sequence < s.seq + 1) ||
                    (s.act.active && decide (k = s.act.slot))
                playedCount := if k = m then 0 else x.playedCount }) ∧
        t = { s with seq := t.seq, lastSeq := t.lastSeq, act := t.act, slots := t.slots })

/-- 44_cmd_dac_stream.md R250: a start retires every slot whose sequence was skipped and never the one of the new
sequence, unless that very slot is the one being replaced. Derived by the spec; it rests on its decision D31
(92_eei_decisions.md). -/
def Obligations.StartRetiresSkippedOnly : Prop :=
  ∀ (i : Instr) (s : State), StreamStartForm i →
    ∃ t, exec i s = .next t ∧
      ∀ (k : Nat) (x z : Slot), s.slots[k]? = some x → t.slots[k]? = some z →
        (s.lastSeq < x.sequence → x.sequence < s.seq + 1 → z.free = true) ∧
        (x.sequence = s.seq + 1 → (s.act.active = true → s.act.slot ≠ k) → z.free = x.free) ∧
        (x.sequence = s.lastSeq → (s.act.active = true → s.act.slot ≠ k) → z.free = x.free)

/-- 44_cmd_dac_stream.md R252, with R251 and R253: the DAC tick, every case. Rests on the spec's own decisions D32,
D33, D36 (92_eei_decisions.md). -/
def Obligations.DacTickCases : Prop :=
  ∀ s : State, s.cfg.clockHz < 2 ^ 32 → BusReady s → PoolInv s → StreamClockInv s →
    (s.act.active = false → dacTick s = s) ∧
    (∀ (x : Slot), s.act.active = true → s.slots[s.act.slot]? = some x → x.queue = [] →
      dacTick s = { s with log := s.log ++ [{ code := 0x13, info := BitVec.ofNat 32 s.act.slot }] }) ∧
    (∀ (x : Slot) (b : Byte) (rest : List Byte),
      s.act.active = true → s.slots[s.act.slot]? = some x → x.queue = b :: rest →
      (s.act.rate = 0 ∨ s.clk.cyc.toNat - s.act.last.toNat < max 1 (s.cfg.clockHz / s.act.rate.toNat)) →
      dacTick s = s) ∧
    (∀ (x : Slot) (b : Byte) (rest : List Byte),
      s.act.active = true → s.slots[s.act.slot]? = some x → x.queue = b :: rest → s.act.rate ≠ 0 →
      max 1 (s.cfg.clockHz / s.act.rate.toNat) ≤ s.clk.cyc.toNat - s.act.last.toNat →
      ∃ t e, dacTick s = t ∧ e = decide (s.act.mode = .byLength ∧ s.act.len ≤ x.playedCount + 1) ∧
        Sends s t (fmEvents s.act.port s.act.reg b) ∧
        t.act.last.toNat = s.act.last.toNat + max 1 (s.cfg.clockHz / s.act.rate.toNat) ∧
        t.act = { s.act with last := t.act.last, active := !e } ∧
        t.slots.length = s.slots.length ∧
        (∀ (k : Nat) (z : Slot), s.slots[k]? = some z →
          t.slots[k]? =
            some
              (if k = s.act.slot then
                { z with queue := rest, playedCount := z.playedCount + 1, free := z.free || e }
               else z)) ∧
        t = { s with ser := t.ser, act := t.act, slots := t.slots })

/-! ### END and the requests -/

/-- 45_cmd_control.md R271. Rests on the spec's own decision D29 (92_eei_decisions.md). -/
def Obligations.EndOfStream : Prop :=
  ∀ s : State, BusReady s →
    ∃ t, exec .endStream s = .next t ∧ Sends s t resetEvents ∧ t.ser.bus.length = s.ser.bus.length + 14 ∧
      t =
        { s with
          ser := t.ser
          status := { s.status with running := false, finished := true }
          stopped := false }

/-- 60_exceptions.md R322. Rests on the spec's own decision D28 (92_eei_decisions.md). -/
def Obligations.StartService : Prop :=
  ∀ s : State,
    exec .start s =
      .next
        { s with
          req := { s.req with start := false }
          mix :=
            { fmPan := #v[0xC0, 0xC0, 0xC0, 0xC0, 0xC0, 0xC0]
              fmAlg := #v[0, 0, 0, 0, 0, 0]
              psgAtt := #v[0x9F, 0xBF, 0xDF, 0xFF] }
          trk :=
            { psgCh := 0, psgType := false, psgLow := 0x00, psgLowV := false, dacEn := false, dacAcc := 0,
              dacCnt := 0 }
          clk := { lastHw := s.hwcc, cyc := 0, sample := 0, nextDue := 0, fwSeen := false, paused := 0 }
          seq := 0
          lastSeq := 0
          act :=
            { active := false, slot := 0, rate := 0, port := 0, reg := 0, mode := .byLength, len := 0, last := 0 }
          status :=
            { s.status with cmdUnderrun := false, pcmUnderrun := false, finished := false, running := true }
          stopped := false }

/-- 60_exceptions.md R323. The order of the ten writes is the spec's decision D12 (92_eei_decisions.md). -/
def Obligations.UpdateMutingService : Prop :=
  ∀ s : State, BusReady s →
    ∃ t, exec .updmute s = .next t ∧ Sends s t (updateMutingEvents s) ∧
      t.ser.bus.length = s.ser.bus.length + 54 ∧
      t = { s with ser := t.ser, req := { s.req with updMute := false } }

/-- 60_exceptions.md R324. Rests on the spec's own decisions D26, D29 (92_eei_decisions.md). -/
def Obligations.ResetService : Prop :=
  ∀ s : State, BusReady s →
    ∃ t, exec .reset s = .next t ∧ Sends s t resetEvents ∧ t.ser.bus.length = s.ser.bus.length + 14 ∧
      t =
        { s with
          ser := t.ser
          req := { s.req with reset := false }
          status := { s.status with resetAck := true } }

/-- 60_exceptions.md R325: every channel is forced silent whatever masks and mono policy say, the position is
remembered. What silence is and the order of the writes are the spec's decisions D11, D12 (92_eei_decisions.md). -/
def Obligations.StopService : Prop :=
  ∀ s : State, BusReady s →
    ∃ t, exec .stop s = .next t ∧
      Sends s t (mutingEvents (fun i => s.fmPanAt i &&& 0x3F) (fun c => s.psgAttAt c ||| 0x0F)) ∧
      t.ser.bus.length = s.ser.bus.length + 54 ∧
      t =
        { s with
          ser := t.ser
          req := { s.req with stop := false }
          clk := { s.clk with paused := s.clk.sample }
          status := { s.status with running := false }
          stopped := true }

/-- 60_exceptions.md R326: the mute state is re-applied, the clock re-baselined at the remembered sample. Rests on the
spec's own decisions D12, D20 (92_eei_decisions.md). -/
def Obligations.ResumeService : Prop :=
  ∀ s : State, BusReady s → s.cfg.Wf →
    ∃ t, exec .resume s = .next t ∧ Sends s t (updateMutingEvents s) ∧
      t.ser.bus.length = s.ser.bus.length + 54 ∧
      t.clk.cyc.toNat = s.clk.paused.toNat * s.cfg.cps ∧
      t =
        { s with
          ser := t.ser
          req := { s.req with resume := false }
          clk := { s.clk with cyc := t.clk.cyc, lastHw := s.hwcc, sample := s.clk.paused }
          act := rebasedStream s.act t.clk.cyc
          status := { s.status with running := true }
          stopped := false }

/-- 60_exceptions.md R327: a Stop at sample N and a later Resume, with caches, controls and mitigation state kept in
between, leave SAMPLE at N and transmit for every channel the byte that was in force before the Stop. The conclusion
about every byte is derived by the spec; it rests on its decisions D12, D20 (92_eei_decisions.md). -/
def Obligations.StopResumeRoundTrip : Prop :=
  ∀ s r : State, BusReady s →
    ∃ t, exec .stop s = .next t ∧
      (BusReady r → r.mix = t.mix → r.ctl = t.ctl → r.trk.dacEn = t.trk.dacEn → r.clk.fwSeen = t.clk.fwSeen →
        r.clk.paused = t.clk.paused →
        ∃ u, exec .resume r = .next u ∧ u.clk.sample = s.clk.sample ∧ u.mix = s.mix ∧
          Sends r u (updateMutingEvents s) ∧ u.status.running = true)

/-! ### The whole machine -/

/-- 60_exceptions.md R332: the scheduler state each instruction leaves. Rests on the spec's own decision D27
(92_eei_decisions.md). -/
def Obligations.ModeTransitions : Prop :=
  ∀ (i : Instr) (s : State), ∃ t, exec i s = .next t ∧
    t.mode =
      (match i with
       | .start => .running
       | .resume => .running
       | .stop => .stopped
       | .endStream => .idle
       | _ => s.mode) ∧
    (i = .endStream → t.status.finished = true) ∧
    (i ≠ .endStream → i ≠ .start → t.status.finished = s.status.finished)

/-- 10_state.md R33, R23 to R25; 90_conflicts.md C8: a tick never writes a mixing control, an input or the
configuration; only chip-write commands and Start write the mix caches. Rests on the spec's own decisions D28, D51
(92_eei_decisions.md). -/
def Obligations.ControlsAndCachesWriters : Prop :=
  (∀ s t : State, tick s = .next t →
    t.ctl = s.ctl ∧ t.cfg = s.cfg ∧ t.setupOk = s.setupOk ∧ t.hwcc = s.hwcc ∧ t.ticks = s.ticks ∧
      t.agenda = s.agenda) ∧
  (∀ (i : Instr) (s : State), (∀ v, i ≠ .psgw v) → (∀ r v, i ≠ .fmw0 r v) → (∀ r v, i ≠ .fmw1 r v) → i ≠ .start →
    ∃ t, exec i s = .next t ∧ t.mix = s.mix ∧ t.activity = s.activity ∧ t.trk = s.trk)

/-- 10_state.md R49, 42_cmd_chip_writes.md R187, R197: no tick clears a PARAM flag; PARAM and DAC of a PSG voice are
never written; DAC is written for voice 5 only. Rests on the spec's own decision D39 (92_eei_decisions.md). -/
def Obligations.ActivityFlagsWrittenByTicks : Prop :=
  ∀ s t : State, tick s = .next t → ∀ v : Fin 10,
    ((s.activityAt v).param = true → (t.activityAt v).param = true) ∧
    (6 ≤ v.val → (t.activityAt v).param = (s.activityAt v).param ∧ (t.activityAt v).dac = (s.activityAt v).dac) ∧
    (v ≠ 5 → (t.activityAt v).dac = (s.activityAt v).dac)

/-- 10_state.md R46, R48; 20_memory.md R74, R75: a tick never allocates a slot or writes its static fields, and takes
at most the oldest byte of each data queue, never adding one. Rests on the spec's own decisions D34, D35
(92_eei_decisions.md). -/
def Obligations.TicksOnlyConsume : Prop :=
  ∀ s t : State, tick s = .next t →
    (t.pcmq = s.pcmq ∨ ∃ b, s.pcmq = b :: t.pcmq) ∧ t.slots.length = s.slots.length ∧
    ∀ (k : Nat) (x : Slot), s.slots[k]? = some x →
      ∃ y, t.slots[k]? = some y ∧ (x.free = true → y.free = true) ∧
        (y.queue = x.queue ∨ ∃ b, x.queue = b :: y.queue) ∧
        y = { x with free := y.free, queue := y.queue, playedCount := y.playedCount }

/-- 60_exceptions.md R335, 20_memory.md R78, 10_state.md R46: between ticks LOADER and HOST write what is theirs, and
nothing that CBD owns: not the serializer, caches, decoder tracking, clock, position, stream state, log or fault. A
slot that is not free keeps every field and only gains bytes at the tail of its queue, but for the pool
re-initialisation while not running (44_cmd_dac_stream.md R241). HOST's only write to a counter of the statistic is 0
(R30). Rests on the spec's own decisions D34, D35, D51 (92_eei_decisions.md); the actions are the model's rendering of
the agents (logs 3, 4). -/
def Obligations.AgentsWriteOnlyTheirs : Prop :=
  ∀ (as : List AgentAction) (s t : State), applyActions as s = .next t →
    t =
      { s with
        trk := { s.trk with dacAcc := t.trk.dacAcc, dacCnt := t.trk.dacCnt }
        ctl := t.ctl
        req := t.req
        status := { s.status with resetAck := t.status.resetAck }
        slots := t.slots
        cmdq := t.cmdq
        pcmq := t.pcmq
        activity := t.activity } ∧
    t.slots.length = s.slots.length ∧
    (t.status.resetAck = true → s.status.resetAck = true) ∧
    (t.trk.dacAcc = s.trk.dacAcc ∨ t.trk.dacAcc = 0) ∧
    (t.trk.dacCnt = s.trk.dacCnt ∨ t.trk.dacCnt = 0) ∧
    (∀ (k : Nat) (x : Slot), s.slots[k]? = some x → x.free = false →
      (∃ n, t.slots[k]? = some { x with queue := x.queue ++ n }) ∨
        (s.status.running = false ∧ AgentAction.reinitPool ∈ as)) ∧
    (∀ v, ((t.activityAt v).kon = true → (s.activityAt v).kon = true) ∧
      ((t.activityAt v).param = true → (s.activityAt v).param = true) ∧
      ((t.activityAt v).dac = true → (s.activityAt v).dac = true)) ∧
    (s.status.running = true → (∃ n, t.cmdq = s.cmdq ++ n) ∧ ∃ n, t.pcmq = s.pcmq ++ n)

/-- 20_memory.md R75, R96; 44_cmd_dac_stream.md R241; 93_implementation_defined.md U4 (log 4): every operation of the
loader, on CMDQ and PCMQ, on a slot's queue and fields, and on the pool. Rests on the spec's own decisions D34, D35
(92_eei_decisions.md); the refusals are log 4. -/
def Obligations.LoaderQueueOperations : Prop :=
  (∀ (b : Byte) (s : State), applyAction (.pushCmd b) s =
    .next (if s.cmdq.length < s.cfg.cmdCap then { s with cmdq := s.cmdq ++ [b] } else s)) ∧
  (∀ (b : Byte) (s : State), applyAction (.pushPcm b) s =
    .next (if s.pcmq.length < s.cfg.pcmCap then { s with pcmq := s.pcmq ++ [b] } else s)) ∧
  (∀ s : State, applyAction .flushCmd s =
    if s.status.running = true then .refused .flushWhileRunning else .next { s with cmdq := [] }) ∧
  (∀ s : State, applyAction .flushPcm s =
    if s.status.running = true then .refused .flushWhileRunning else .next { s with pcmq := [] }) ∧
  (∀ (k : Nat) (s : State), s.slots[k]? = none →
    (∀ b, applyAction (.pushSlot k b) s = .refused .noSuchSlot) ∧
    applyAction (.flushSlot k) s = .refused .noSuchSlot ∧
    (∀ f, applyAction (.writeSlot k f) s = .refused .noSuchSlot) ∧
    applyAction (.publishSlot k) s = .refused .noSuchSlot) ∧
  (∀ (k : Nat) (x : Slot) (b : Byte) (s : State), s.slots[k]? = some x →
    applyAction (.pushSlot k b) s =
      .next
        { s with
          slots := s.slots.set k
            { x with queue := if x.queue.length < s.cfg.slotCap then x.queue ++ [b] else x.queue } }) ∧
  (∀ (k : Nat) (x : Slot) (s : State), s.slots[k]? = some x → x.free = false →
    applyAction (.flushSlot k) s = .refused .slotNotOwned ∧
    (∀ f, applyAction (.writeSlot k f) s = .refused .slotNotOwned) ∧
    applyAction (.publishSlot k) s = .refused .slotNotOwned) ∧
  (∀ (k : Nat) (x : Slot) (s : State), s.slots[k]? = some x → x.free = true →
    applyAction (.flushSlot k) s = .next { s with slots := s.slots.set k { x with queue := [] } } ∧
    (∀ f : SlotFields, applyAction (.writeSlot k f) s =
      .next
        { s with
          slots := s.slots.set k
            { sequence := f.sequence, free := true, queue := x.queue, sampleRateHz := f.sampleRateHz,
              chipPort := f.chipPort, chipRegister := f.chipRegister, lengthMode := f.lengthMode,
              declaredLength := f.declaredLength, playedCount := f.playedCount } }) ∧
    applyAction (.publishSlot k) s = .next { s with slots := s.slots.set k { x with free := false } }) ∧
  (∀ s : State, applyAction .reinitPool s =
    if s.status.running = true ∨ s.req.start = true then .refused .reinitNotAllowed
    else .next { s with slots := s.slots.map fun x => { x with free := true } })

/-- 10_state.md R41, R40, R49; 20_memory.md R76: the words an observer reads. Rests on the spec's own decisions D26,
D35, D39 (92_eei_decisions.md). -/
def Obligations.ObservedWords : Prop :=
  (∀ s : State,
    s.statusWord.getLsbD 0 = s.status.running ∧ s.statusWord.getLsbD 1 = s.status.finished ∧
    s.statusWord.getLsbD 2 = s.status.resetAck ∧ s.statusWord.getLsbD 3 = s.status.cmdUnderrun ∧
    s.statusWord.getLsbD 4 = s.status.pcmUnderrun ∧
    s.statusWord.getLsbD 5 = decide (s.cmdq.length ≤ s.cfg.cmdCap / 2) ∧
    s.statusWord.getLsbD 6 = decide (s.pcmq.length ≤ s.cfg.pcmCap / 2)) ∧
  (∀ r : Req,
    r.word.getLsbD 0 = r.start ∧ r.word.getLsbD 1 = r.updMute ∧ r.word.getLsbD 2 = r.reset ∧
    r.word.getLsbD 3 = r.stop ∧ r.word.getLsbD 4 = r.resume) ∧
  (∀ a : Activity, a.word.getLsbD 0 = a.kon ∧ a.word.getLsbD 1 = a.param ∧ a.word.getLsbD 2 = a.dac)

end
end

