-- ==== Sys2Proof/Laws/Operands.lean ====
section
/-! SUPPORT. What the operand forms are, said once: the register classes of FM writes, the key-on selector, the
DAC deviation, the fields of PSG bytes, the voices. -/

namespace Sys2Proof.Machine

open Host

/-- The FM write command of a port runs `FmWrite` of that port (42_cmd_chip_writes.md R188, R189). -/
theorem exec_fmw (port : Bool) (reg val : Byte) (s : State) :
    exec (fmw port reg val) s = .next (fmWrite port reg val s) := by cases port <;> rfl

/-- Class PAN of 20_memory.md R84. -/
theorem fmClass_pan (i : Fin 6) : fmClass (decide (3 ≤ i.val)) (0xB4 + BitVec.ofNat 8 (i.val % 3)) = .pan i := by
  revert i; decide

/-- Class ALG of 20_memory.md R84. -/
theorem fmClass_alg (i : Fin 6) : fmClass (decide (3 ≤ i.val)) (0xB0 + BitVec.ofNat 8 (i.val % 3)) = .alg i := by
  revert i; decide

set_option maxRecDepth 10000 in
/-- Class CHPARAM of 20_memory.md R84. -/
theorem fmClass_chParam : ∀ (port : Bool) (reg : Byte) (i : Fin 6), 0x30 ≤ reg → reg ≤ 0xAF →
    (reg &&& 3).toNat ≠ 3 → i.val = 3 * port.toNat + (reg &&& 3).toNat → fmClass port reg = .chParam i := by
  decide

set_option maxRecDepth 10000 in
/-- Class OTHER of 20_memory.md R84. -/
theorem fmClass_other : ∀ (port : Bool) (reg : Byte), ¬(0xB4 ≤ reg ∧ reg ≤ 0xB6) → ¬(0xB0 ≤ reg ∧ reg ≤ 0xB2) →
    ¬(port = false ∧ (reg = 0x28 ∨ reg = 0x2A ∨ reg = 0x2B)) → ¬(0x30 ≤ reg ∧ reg ≤ 0xAF ∧ reg &&& 3 ≠ 3) →
    fmClass port reg = .other := by
  decide

set_option maxRecDepth 10000 in
/-- Only registers 0xB4 to 0xB6 are pan registers (20_memory.md R84). -/
theorem fmClass_eq_pan : ∀ (port : Bool) (reg : Byte) (i : Fin 6), fmClass port reg = .pan i →
    0xB4 ≤ reg ∧ reg ≤ 0xB6 := by
  decide

set_option maxRecDepth 10000 in
/-- The three port 0 classes (20_memory.md R84). -/
theorem fmClass_port0 : ∀ (port : Bool) (reg : Byte),
    (fmClass port reg = .keyOn → port = false ∧ reg = 0x28) ∧
    (fmClass port reg = .dacData → port = false ∧ reg = 0x2A) ∧
    (fmClass port reg = .dacEn → port = false ∧ reg = 0x2B) := by
  decide

set_option maxRecDepth 10000 in
/-- The channel selector of a key-on value (20_memory.md R86). -/
theorem keyOnChannel_some : ∀ (val : Byte) (i : Fin 6),
    (val &&& 7).toNat = (if i.val < 3 then i.val else i.val + 1) → keyOnChannel val = some i := by
  decide

set_option maxRecDepth 10000 in
/-- Selectors 3 and 7 name no channel (20_memory.md R86). -/
theorem keyOnChannel_none : ∀ val : Byte, (val &&& 7 = 3 ∨ val &&& 7 = 7) → keyOnChannel val = none := by
  decide

set_option maxRecDepth 10000 in
/-- The DAC deviation as a natural number (42_cmd_chip_writes.md R199). -/
theorem dacDeviation_toNat : ∀ val : Byte,
    (dacDeviation val).toNat = (if 0x80 ≤ val.toNat then val.toNat - 0x80 else 0x80 - val.toNat) := by
  decide

set_option maxRecDepth 10000 in
/-- An attenuation latch byte is in the latch form of its own channel (10_state.md R25). -/
theorem psgLatch_form : ∀ v : Byte, psgIsLatch v = true → psgIsAtt v = true →
    v &&& 0xF0 = psgAttByte (psgChannel v) 0 := by
  decide

set_option maxRecDepth 10000 in
/-- The equivalent latch byte of a data byte is in latch form (42_cmd_chip_writes.md R185). -/
theorem psgAttByte_form : ∀ (c : BitVec 2) (a : BitVec 4), psgAttByte c a &&& 0xF0 = psgAttByte c 0 := by
  decide

set_option maxRecDepth 10000 in
/-- The frequency fix keeps a byte's channel and type (42_cmd_chip_writes.md R186). -/
theorem freqFix_form : ∀ v : Byte, psgIsLatch (v ||| 0x01) = psgIsLatch v ∧ psgIsAtt (v ||| 0x01) = psgIsAtt v ∧
    psgChannel (v ||| 0x01) = psgChannel v := by
  decide

theorem psgVoice_injective {c d : BitVec 2} (h : psgVoice c = psgVoice d) : c = d := by
  simp only [psgVoice, Fin.ext_iff] at h
  exact BitVec.eq_of_toNat_eq (by omega)

theorem fmVoice_injective {i j : Fin 6} (h : fmVoice i = fmVoice j) : i = j := by
  simp only [fmVoice, Fin.ext_iff] at h
  exact Fin.ext h

end Sys2Proof.Machine
end

