-- ==== Sys2Proof/Laws/State.lean ====
section
/-! SUPPORT. What each named update of the state does to each field: one lemma per field per update. -/

namespace Sys2Proof.Machine

/-! ### `writePsgByte` -/

@[simp] theorem State.writePsgByte_cfg (s : State) (v : Byte) :
    (s.writePsgByte v).cfg = s.cfg := rfl

@[simp] theorem State.writePsgByte_setupOk (s : State) (v : Byte) :
    (s.writePsgByte v).setupOk = s.setupOk := rfl

@[simp] theorem State.writePsgByte_hwcc (s : State) (v : Byte) :
    (s.writePsgByte v).hwcc = s.hwcc := rfl

@[simp] theorem State.writePsgByte_ticks (s : State) (v : Byte) :
    (s.writePsgByte v).ticks = s.ticks := rfl

@[simp] theorem State.writePsgByte_agenda (s : State) (v : Byte) :
    (s.writePsgByte v).agenda = s.agenda := rfl

@[simp] theorem State.writePsgByte_ser (s : State) (v : Byte) :
    (s.writePsgByte v).ser = s.ser.writePsgByte s.cfg v := rfl

@[simp] theorem State.writePsgByte_mix (s : State) (v : Byte) :
    (s.writePsgByte v).mix = s.mix := rfl

@[simp] theorem State.writePsgByte_trk (s : State) (v : Byte) :
    (s.writePsgByte v).trk = s.trk := rfl

@[simp] theorem State.writePsgByte_cmdPc (s : State) (v : Byte) :
    (s.writePsgByte v).cmdPc = s.cmdPc := rfl

@[simp] theorem State.writePsgByte_ctl (s : State) (v : Byte) :
    (s.writePsgByte v).ctl = s.ctl := rfl

@[simp] theorem State.writePsgByte_clk (s : State) (v : Byte) :
    (s.writePsgByte v).clk = s.clk := rfl

@[simp] theorem State.writePsgByte_req (s : State) (v : Byte) :
    (s.writePsgByte v).req = s.req := rfl

@[simp] theorem State.writePsgByte_status (s : State) (v : Byte) :
    (s.writePsgByte v).status = s.status := rfl

@[simp] theorem State.writePsgByte_stopped (s : State) (v : Byte) :
    (s.writePsgByte v).stopped = s.stopped := rfl

@[simp] theorem State.writePsgByte_fault (s : State) (v : Byte) :
    (s.writePsgByte v).fault = s.fault := rfl

@[simp] theorem State.writePsgByte_seq (s : State) (v : Byte) :
    (s.writePsgByte v).seq = s.seq := rfl

@[simp] theorem State.writePsgByte_lastSeq (s : State) (v : Byte) :
    (s.writePsgByte v).lastSeq = s.lastSeq := rfl

@[simp] theorem State.writePsgByte_act (s : State) (v : Byte) :
    (s.writePsgByte v).act = s.act := rfl

@[simp] theorem State.writePsgByte_slots (s : State) (v : Byte) :
    (s.writePsgByte v).slots = s.slots := rfl

@[simp] theorem State.writePsgByte_cmdq (s : State) (v : Byte) :
    (s.writePsgByte v).cmdq = s.cmdq := rfl

@[simp] theorem State.writePsgByte_pcmq (s : State) (v : Byte) :
    (s.writePsgByte v).pcmq = s.pcmq := rfl

@[simp] theorem State.writePsgByte_activity (s : State) (v : Byte) :
    (s.writePsgByte v).activity = s.activity := rfl

@[simp] theorem State.writePsgByte_log (s : State) (v : Byte) :
    (s.writePsgByte v).log = s.log := rfl

/-! ### `writeFmRegister` -/

@[simp] theorem State.writeFmRegister_cfg (s : State) (port reg val : Byte) :
    (s.writeFmRegister port reg val).cfg = s.cfg := rfl

@[simp] theorem State.writeFmRegister_setupOk (s : State) (port reg val : Byte) :
    (s.writeFmRegister port reg val).setupOk = s.setupOk := rfl

@[simp] theorem State.writeFmRegister_hwcc (s : State) (port reg val : Byte) :
    (s.writeFmRegister port reg val).hwcc = s.hwcc := rfl

@[simp] theorem State.writeFmRegister_ticks (s : State) (port reg val : Byte) :
    (s.writeFmRegister port reg val).ticks = s.ticks := rfl

@[simp] theorem State.writeFmRegister_agenda (s : State) (port reg val : Byte) :
    (s.writeFmRegister port reg val).agenda = s.agenda := rfl

@[simp] theorem State.writeFmRegister_ser (s : State) (port reg val : Byte) :
    (s.writeFmRegister port reg val).ser = s.ser.writeFmRegister s.cfg port reg val := rfl

@[simp] theorem State.writeFmRegister_mix (s : State) (port reg val : Byte) :
    (s.writeFmRegister port reg val).mix = s.mix := rfl

@[simp] theorem State.writeFmRegister_trk (s : State) (port reg val : Byte) :
    (s.writeFmRegister port reg val).trk = s.trk := rfl

@[simp] theorem State.writeFmRegister_cmdPc (s : State) (port reg val : Byte) :
    (s.writeFmRegister port reg val).cmdPc = s.cmdPc := rfl

@[simp] theorem State.writeFmRegister_ctl (s : State) (port reg val : Byte) :
    (s.writeFmRegister port reg val).ctl = s.ctl := rfl

@[simp] theorem State.writeFmRegister_clk (s : State) (port reg val : Byte) :
    (s.writeFmRegister port reg val).clk = s.clk := rfl

@[simp] theorem State.writeFmRegister_req (s : State) (port reg val : Byte) :
    (s.writeFmRegister port reg val).req = s.req := rfl

@[simp] theorem State.writeFmRegister_status (s : State) (port reg val : Byte) :
    (s.writeFmRegister port reg val).status = s.status := rfl

@[simp] theorem State.writeFmRegister_stopped (s : State) (port reg val : Byte) :
    (s.writeFmRegister port reg val).stopped = s.stopped := rfl

@[simp] theorem State.writeFmRegister_fault (s : State) (port reg val : Byte) :
    (s.writeFmRegister port reg val).fault = s.fault := rfl

@[simp] theorem State.writeFmRegister_seq (s : State) (port reg val : Byte) :
    (s.writeFmRegister port reg val).seq = s.seq := rfl

@[simp] theorem State.writeFmRegister_lastSeq (s : State) (port reg val : Byte) :
    (s.writeFmRegister port reg val).lastSeq = s.lastSeq := rfl

@[simp] theorem State.writeFmRegister_act (s : State) (port reg val : Byte) :
    (s.writeFmRegister port reg val).act = s.act := rfl

@[simp] theorem State.writeFmRegister_slots (s : State) (port reg val : Byte) :
    (s.writeFmRegister port reg val).slots = s.slots := rfl

@[simp] theorem State.writeFmRegister_cmdq (s : State) (port reg val : Byte) :
    (s.writeFmRegister port reg val).cmdq = s.cmdq := rfl

@[simp] theorem State.writeFmRegister_pcmq (s : State) (port reg val : Byte) :
    (s.writeFmRegister port reg val).pcmq = s.pcmq := rfl

@[simp] theorem State.writeFmRegister_activity (s : State) (port reg val : Byte) :
    (s.writeFmRegister port reg val).activity = s.activity := rfl

@[simp] theorem State.writeFmRegister_log (s : State) (port reg val : Byte) :
    (s.writeFmRegister port reg val).log = s.log := rfl

/-! ### `resetChips` -/

@[simp] theorem State.resetChips_cfg (s : State) :
    (s.resetChips).cfg = s.cfg := rfl

@[simp] theorem State.resetChips_setupOk (s : State) :
    (s.resetChips).setupOk = s.setupOk := rfl

@[simp] theorem State.resetChips_hwcc (s : State) :
    (s.resetChips).hwcc = s.hwcc := rfl

@[simp] theorem State.resetChips_ticks (s : State) :
    (s.resetChips).ticks = s.ticks := rfl

@[simp] theorem State.resetChips_agenda (s : State) :
    (s.resetChips).agenda = s.agenda := rfl

@[simp] theorem State.resetChips_ser (s : State) :
    (s.resetChips).ser = s.ser.resetChips s.cfg := rfl

@[simp] theorem State.resetChips_mix (s : State) :
    (s.resetChips).mix = s.mix := rfl

@[simp] theorem State.resetChips_trk (s : State) :
    (s.resetChips).trk = s.trk := rfl

@[simp] theorem State.resetChips_cmdPc (s : State) :
    (s.resetChips).cmdPc = s.cmdPc := rfl

@[simp] theorem State.resetChips_ctl (s : State) :
    (s.resetChips).ctl = s.ctl := rfl

@[simp] theorem State.resetChips_clk (s : State) :
    (s.resetChips).clk = s.clk := rfl

@[simp] theorem State.resetChips_req (s : State) :
    (s.resetChips).req = s.req := rfl

@[simp] theorem State.resetChips_status (s : State) :
    (s.resetChips).status = s.status := rfl

@[simp] theorem State.resetChips_stopped (s : State) :
    (s.resetChips).stopped = s.stopped := rfl

@[simp] theorem State.resetChips_fault (s : State) :
    (s.resetChips).fault = s.fault := rfl

@[simp] theorem State.resetChips_seq (s : State) :
    (s.resetChips).seq = s.seq := rfl

@[simp] theorem State.resetChips_lastSeq (s : State) :
    (s.resetChips).lastSeq = s.lastSeq := rfl

@[simp] theorem State.resetChips_act (s : State) :
    (s.resetChips).act = s.act := rfl

@[simp] theorem State.resetChips_slots (s : State) :
    (s.resetChips).slots = s.slots := rfl

@[simp] theorem State.resetChips_cmdq (s : State) :
    (s.resetChips).cmdq = s.cmdq := rfl

@[simp] theorem State.resetChips_pcmq (s : State) :
    (s.resetChips).pcmq = s.pcmq := rfl

@[simp] theorem State.resetChips_activity (s : State) :
    (s.resetChips).activity = s.activity := rfl

@[simp] theorem State.resetChips_log (s : State) :
    (s.resetChips).log = s.log := rfl

/-! ### `emitMuting` -/

@[simp] theorem State.emitMuting_cfg (s : State) (force : Bool) :
    (s.emitMuting force).cfg = s.cfg := rfl

@[simp] theorem State.emitMuting_setupOk (s : State) (force : Bool) :
    (s.emitMuting force).setupOk = s.setupOk := rfl

@[simp] theorem State.emitMuting_hwcc (s : State) (force : Bool) :
    (s.emitMuting force).hwcc = s.hwcc := rfl

@[simp] theorem State.emitMuting_ticks (s : State) (force : Bool) :
    (s.emitMuting force).ticks = s.ticks := rfl

@[simp] theorem State.emitMuting_agenda (s : State) (force : Bool) :
    (s.emitMuting force).agenda = s.agenda := rfl

@[simp] theorem State.emitMuting_ser (s : State) (force : Bool) :
    (s.emitMuting force).ser = s.ser.emitMuting s.cfg (fun i => s.fmPanOut i force) fun c => s.psgAttOut c force := rfl

@[simp] theorem State.emitMuting_mix (s : State) (force : Bool) :
    (s.emitMuting force).mix = s.mix := rfl

@[simp] theorem State.emitMuting_trk (s : State) (force : Bool) :
    (s.emitMuting force).trk = s.trk := rfl

@[simp] theorem State.emitMuting_cmdPc (s : State) (force : Bool) :
    (s.emitMuting force).cmdPc = s.cmdPc := rfl

@[simp] theorem State.emitMuting_ctl (s : State) (force : Bool) :
    (s.emitMuting force).ctl = s.ctl := rfl

@[simp] theorem State.emitMuting_clk (s : State) (force : Bool) :
    (s.emitMuting force).clk = s.clk := rfl

@[simp] theorem State.emitMuting_req (s : State) (force : Bool) :
    (s.emitMuting force).req = s.req := rfl

@[simp] theorem State.emitMuting_status (s : State) (force : Bool) :
    (s.emitMuting force).status = s.status := rfl

@[simp] theorem State.emitMuting_stopped (s : State) (force : Bool) :
    (s.emitMuting force).stopped = s.stopped := rfl

@[simp] theorem State.emitMuting_fault (s : State) (force : Bool) :
    (s.emitMuting force).fault = s.fault := rfl

@[simp] theorem State.emitMuting_seq (s : State) (force : Bool) :
    (s.emitMuting force).seq = s.seq := rfl

@[simp] theorem State.emitMuting_lastSeq (s : State) (force : Bool) :
    (s.emitMuting force).lastSeq = s.lastSeq := rfl

@[simp] theorem State.emitMuting_act (s : State) (force : Bool) :
    (s.emitMuting force).act = s.act := rfl

@[simp] theorem State.emitMuting_slots (s : State) (force : Bool) :
    (s.emitMuting force).slots = s.slots := rfl

@[simp] theorem State.emitMuting_cmdq (s : State) (force : Bool) :
    (s.emitMuting force).cmdq = s.cmdq := rfl

@[simp] theorem State.emitMuting_pcmq (s : State) (force : Bool) :
    (s.emitMuting force).pcmq = s.pcmq := rfl

@[simp] theorem State.emitMuting_activity (s : State) (force : Bool) :
    (s.emitMuting force).activity = s.activity := rfl

@[simp] theorem State.emitMuting_log (s : State) (force : Bool) :
    (s.emitMuting force).log = s.log := rfl

/-! ### `addLog` -/

@[simp] theorem State.addLog_cfg (s : State) (code : Byte) (info : U32) :
    (s.addLog code info).cfg = s.cfg := rfl

@[simp] theorem State.addLog_setupOk (s : State) (code : Byte) (info : U32) :
    (s.addLog code info).setupOk = s.setupOk := rfl

@[simp] theorem State.addLog_hwcc (s : State) (code : Byte) (info : U32) :
    (s.addLog code info).hwcc = s.hwcc := rfl

@[simp] theorem State.addLog_ticks (s : State) (code : Byte) (info : U32) :
    (s.addLog code info).ticks = s.ticks := rfl

@[simp] theorem State.addLog_agenda (s : State) (code : Byte) (info : U32) :
    (s.addLog code info).agenda = s.agenda := rfl

@[simp] theorem State.addLog_ser (s : State) (code : Byte) (info : U32) :
    (s.addLog code info).ser = s.ser := rfl

@[simp] theorem State.addLog_mix (s : State) (code : Byte) (info : U32) :
    (s.addLog code info).mix = s.mix := rfl

@[simp] theorem State.addLog_trk (s : State) (code : Byte) (info : U32) :
    (s.addLog code info).trk = s.trk := rfl

@[simp] theorem State.addLog_cmdPc (s : State) (code : Byte) (info : U32) :
    (s.addLog code info).cmdPc = s.cmdPc := rfl

@[simp] theorem State.addLog_ctl (s : State) (code : Byte) (info : U32) :
    (s.addLog code info).ctl = s.ctl := rfl

@[simp] theorem State.addLog_clk (s : State) (code : Byte) (info : U32) :
    (s.addLog code info).clk = s.clk := rfl

@[simp] theorem State.addLog_req (s : State) (code : Byte) (info : U32) :
    (s.addLog code info).req = s.req := rfl

@[simp] theorem State.addLog_status (s : State) (code : Byte) (info : U32) :
    (s.addLog code info).status = s.status := rfl

@[simp] theorem State.addLog_stopped (s : State) (code : Byte) (info : U32) :
    (s.addLog code info).stopped = s.stopped := rfl

@[simp] theorem State.addLog_fault (s : State) (code : Byte) (info : U32) :
    (s.addLog code info).fault = s.fault := rfl

@[simp] theorem State.addLog_seq (s : State) (code : Byte) (info : U32) :
    (s.addLog code info).seq = s.seq := rfl

@[simp] theorem State.addLog_lastSeq (s : State) (code : Byte) (info : U32) :
    (s.addLog code info).lastSeq = s.lastSeq := rfl

@[simp] theorem State.addLog_act (s : State) (code : Byte) (info : U32) :
    (s.addLog code info).act = s.act := rfl

@[simp] theorem State.addLog_slots (s : State) (code : Byte) (info : U32) :
    (s.addLog code info).slots = s.slots := rfl

@[simp] theorem State.addLog_cmdq (s : State) (code : Byte) (info : U32) :
    (s.addLog code info).cmdq = s.cmdq := rfl

@[simp] theorem State.addLog_pcmq (s : State) (code : Byte) (info : U32) :
    (s.addLog code info).pcmq = s.pcmq := rfl

@[simp] theorem State.addLog_activity (s : State) (code : Byte) (info : U32) :
    (s.addLog code info).activity = s.activity := rfl

@[simp] theorem State.addLog_log (s : State) (code : Byte) (info : U32) :
    (s.addLog code info).log = s.log ++ [{ code := code, info := info }] := rfl

/-! ### `setFmPan` -/

@[simp] theorem State.setFmPan_cfg (s : State) (i : Fin 6) (v : Byte) :
    (s.setFmPan i v).cfg = s.cfg := rfl

@[simp] theorem State.setFmPan_setupOk (s : State) (i : Fin 6) (v : Byte) :
    (s.setFmPan i v).setupOk = s.setupOk := rfl

@[simp] theorem State.setFmPan_hwcc (s : State) (i : Fin 6) (v : Byte) :
    (s.setFmPan i v).hwcc = s.hwcc := rfl

@[simp] theorem State.setFmPan_ticks (s : State) (i : Fin 6) (v : Byte) :
    (s.setFmPan i v).ticks = s.ticks := rfl

@[simp] theorem State.setFmPan_agenda (s : State) (i : Fin 6) (v : Byte) :
    (s.setFmPan i v).agenda = s.agenda := rfl

@[simp] theorem State.setFmPan_ser (s : State) (i : Fin 6) (v : Byte) :
    (s.setFmPan i v).ser = s.ser := rfl

@[simp] theorem State.setFmPan_mix (s : State) (i : Fin 6) (v : Byte) :
    (s.setFmPan i v).mix = { s.mix with fmPan := s.mix.fmPan.set i v } := rfl

@[simp] theorem State.setFmPan_trk (s : State) (i : Fin 6) (v : Byte) :
    (s.setFmPan i v).trk = s.trk := rfl

@[simp] theorem State.setFmPan_cmdPc (s : State) (i : Fin 6) (v : Byte) :
    (s.setFmPan i v).cmdPc = s.cmdPc := rfl

@[simp] theorem State.setFmPan_ctl (s : State) (i : Fin 6) (v : Byte) :
    (s.setFmPan i v).ctl = s.ctl := rfl

@[simp] theorem State.setFmPan_clk (s : State) (i : Fin 6) (v : Byte) :
    (s.setFmPan i v).clk = s.clk := rfl

@[simp] theorem State.setFmPan_req (s : State) (i : Fin 6) (v : Byte) :
    (s.setFmPan i v).req = s.req := rfl

@[simp] theorem State.setFmPan_status (s : State) (i : Fin 6) (v : Byte) :
    (s.setFmPan i v).status = s.status := rfl

@[simp] theorem State.setFmPan_stopped (s : State) (i : Fin 6) (v : Byte) :
    (s.setFmPan i v).stopped = s.stopped := rfl

@[simp] theorem State.setFmPan_fault (s : State) (i : Fin 6) (v : Byte) :
    (s.setFmPan i v).fault = s.fault := rfl

@[simp] theorem State.setFmPan_seq (s : State) (i : Fin 6) (v : Byte) :
    (s.setFmPan i v).seq = s.seq := rfl

@[simp] theorem State.setFmPan_lastSeq (s : State) (i : Fin 6) (v : Byte) :
    (s.setFmPan i v).lastSeq = s.lastSeq := rfl

@[simp] theorem State.setFmPan_act (s : State) (i : Fin 6) (v : Byte) :
    (s.setFmPan i v).act = s.act := rfl

@[simp] theorem State.setFmPan_slots (s : State) (i : Fin 6) (v : Byte) :
    (s.setFmPan i v).slots = s.slots := rfl

@[simp] theorem State.setFmPan_cmdq (s : State) (i : Fin 6) (v : Byte) :
    (s.setFmPan i v).cmdq = s.cmdq := rfl

@[simp] theorem State.setFmPan_pcmq (s : State) (i : Fin 6) (v : Byte) :
    (s.setFmPan i v).pcmq = s.pcmq := rfl

@[simp] theorem State.setFmPan_activity (s : State) (i : Fin 6) (v : Byte) :
    (s.setFmPan i v).activity = s.activity := rfl

@[simp] theorem State.setFmPan_log (s : State) (i : Fin 6) (v : Byte) :
    (s.setFmPan i v).log = s.log := rfl

/-! ### `setFmAlg` -/

@[simp] theorem State.setFmAlg_cfg (s : State) (i : Fin 6) (v : BitVec 3) :
    (s.setFmAlg i v).cfg = s.cfg := rfl

@[simp] theorem State.setFmAlg_setupOk (s : State) (i : Fin 6) (v : BitVec 3) :
    (s.setFmAlg i v).setupOk = s.setupOk := rfl

@[simp] theorem State.setFmAlg_hwcc (s : State) (i : Fin 6) (v : BitVec 3) :
    (s.setFmAlg i v).hwcc = s.hwcc := rfl

@[simp] theorem State.setFmAlg_ticks (s : State) (i : Fin 6) (v : BitVec 3) :
    (s.setFmAlg i v).ticks = s.ticks := rfl

@[simp] theorem State.setFmAlg_agenda (s : State) (i : Fin 6) (v : BitVec 3) :
    (s.setFmAlg i v).agenda = s.agenda := rfl

@[simp] theorem State.setFmAlg_ser (s : State) (i : Fin 6) (v : BitVec 3) :
    (s.setFmAlg i v).ser = s.ser := rfl

@[simp] theorem State.setFmAlg_mix (s : State) (i : Fin 6) (v : BitVec 3) :
    (s.setFmAlg i v).mix = { s.mix with fmAlg := s.mix.fmAlg.set i v } := rfl

@[simp] theorem State.setFmAlg_trk (s : State) (i : Fin 6) (v : BitVec 3) :
    (s.setFmAlg i v).trk = s.trk := rfl

@[simp] theorem State.setFmAlg_cmdPc (s : State) (i : Fin 6) (v : BitVec 3) :
    (s.setFmAlg i v).cmdPc = s.cmdPc := rfl

@[simp] theorem State.setFmAlg_ctl (s : State) (i : Fin 6) (v : BitVec 3) :
    (s.setFmAlg i v).ctl = s.ctl := rfl

@[simp] theorem State.setFmAlg_clk (s : State) (i : Fin 6) (v : BitVec 3) :
    (s.setFmAlg i v).clk = s.clk := rfl

@[simp] theorem State.setFmAlg_req (s : State) (i : Fin 6) (v : BitVec 3) :
    (s.setFmAlg i v).req = s.req := rfl

@[simp] theorem State.setFmAlg_status (s : State) (i : Fin 6) (v : BitVec 3) :
    (s.setFmAlg i v).status = s.status := rfl

@[simp] theorem State.setFmAlg_stopped (s : State) (i : Fin 6) (v : BitVec 3) :
    (s.setFmAlg i v).stopped = s.stopped := rfl

@[simp] theorem State.setFmAlg_fault (s : State) (i : Fin 6) (v : BitVec 3) :
    (s.setFmAlg i v).fault = s.fault := rfl

@[simp] theorem State.setFmAlg_seq (s : State) (i : Fin 6) (v : BitVec 3) :
    (s.setFmAlg i v).seq = s.seq := rfl

@[simp] theorem State.setFmAlg_lastSeq (s : State) (i : Fin 6) (v : BitVec 3) :
    (s.setFmAlg i v).lastSeq = s.lastSeq := rfl

@[simp] theorem State.setFmAlg_act (s : State) (i : Fin 6) (v : BitVec 3) :
    (s.setFmAlg i v).act = s.act := rfl

@[simp] theorem State.setFmAlg_slots (s : State) (i : Fin 6) (v : BitVec 3) :
    (s.setFmAlg i v).slots = s.slots := rfl

@[simp] theorem State.setFmAlg_cmdq (s : State) (i : Fin 6) (v : BitVec 3) :
    (s.setFmAlg i v).cmdq = s.cmdq := rfl

@[simp] theorem State.setFmAlg_pcmq (s : State) (i : Fin 6) (v : BitVec 3) :
    (s.setFmAlg i v).pcmq = s.pcmq := rfl

@[simp] theorem State.setFmAlg_activity (s : State) (i : Fin 6) (v : BitVec 3) :
    (s.setFmAlg i v).activity = s.activity := rfl

@[simp] theorem State.setFmAlg_log (s : State) (i : Fin 6) (v : BitVec 3) :
    (s.setFmAlg i v).log = s.log := rfl

/-! ### `setPsgAtt` -/

@[simp] theorem State.setPsgAtt_cfg (s : State) (c : BitVec 2) (v : Byte) :
    (s.setPsgAtt c v).cfg = s.cfg := rfl

@[simp] theorem State.setPsgAtt_setupOk (s : State) (c : BitVec 2) (v : Byte) :
    (s.setPsgAtt c v).setupOk = s.setupOk := rfl

@[simp] theorem State.setPsgAtt_hwcc (s : State) (c : BitVec 2) (v : Byte) :
    (s.setPsgAtt c v).hwcc = s.hwcc := rfl

@[simp] theorem State.setPsgAtt_ticks (s : State) (c : BitVec 2) (v : Byte) :
    (s.setPsgAtt c v).ticks = s.ticks := rfl

@[simp] theorem State.setPsgAtt_agenda (s : State) (c : BitVec 2) (v : Byte) :
    (s.setPsgAtt c v).agenda = s.agenda := rfl

@[simp] theorem State.setPsgAtt_ser (s : State) (c : BitVec 2) (v : Byte) :
    (s.setPsgAtt c v).ser = s.ser := rfl

@[simp] theorem State.setPsgAtt_mix (s : State) (c : BitVec 2) (v : Byte) :
    (s.setPsgAtt c v).mix = { s.mix with psgAtt := s.mix.psgAtt.set c.toNat v c.isLt } := rfl

@[simp] theorem State.setPsgAtt_trk (s : State) (c : BitVec 2) (v : Byte) :
    (s.setPsgAtt c v).trk = s.trk := rfl

@[simp] theorem State.setPsgAtt_cmdPc (s : State) (c : BitVec 2) (v : Byte) :
    (s.setPsgAtt c v).cmdPc = s.cmdPc := rfl

@[simp] theorem State.setPsgAtt_ctl (s : State) (c : BitVec 2) (v : Byte) :
    (s.setPsgAtt c v).ctl = s.ctl := rfl

@[simp] theorem State.setPsgAtt_clk (s : State) (c : BitVec 2) (v : Byte) :
    (s.setPsgAtt c v).clk = s.clk := rfl

@[simp] theorem State.setPsgAtt_req (s : State) (c : BitVec 2) (v : Byte) :
    (s.setPsgAtt c v).req = s.req := rfl

@[simp] theorem State.setPsgAtt_status (s : State) (c : BitVec 2) (v : Byte) :
    (s.setPsgAtt c v).status = s.status := rfl

@[simp] theorem State.setPsgAtt_stopped (s : State) (c : BitVec 2) (v : Byte) :
    (s.setPsgAtt c v).stopped = s.stopped := rfl

@[simp] theorem State.setPsgAtt_fault (s : State) (c : BitVec 2) (v : Byte) :
    (s.setPsgAtt c v).fault = s.fault := rfl

@[simp] theorem State.setPsgAtt_seq (s : State) (c : BitVec 2) (v : Byte) :
    (s.setPsgAtt c v).seq = s.seq := rfl

@[simp] theorem State.setPsgAtt_lastSeq (s : State) (c : BitVec 2) (v : Byte) :
    (s.setPsgAtt c v).lastSeq = s.lastSeq := rfl

@[simp] theorem State.setPsgAtt_act (s : State) (c : BitVec 2) (v : Byte) :
    (s.setPsgAtt c v).act = s.act := rfl

@[simp] theorem State.setPsgAtt_slots (s : State) (c : BitVec 2) (v : Byte) :
    (s.setPsgAtt c v).slots = s.slots := rfl

@[simp] theorem State.setPsgAtt_cmdq (s : State) (c : BitVec 2) (v : Byte) :
    (s.setPsgAtt c v).cmdq = s.cmdq := rfl

@[simp] theorem State.setPsgAtt_pcmq (s : State) (c : BitVec 2) (v : Byte) :
    (s.setPsgAtt c v).pcmq = s.pcmq := rfl

@[simp] theorem State.setPsgAtt_activity (s : State) (c : BitVec 2) (v : Byte) :
    (s.setPsgAtt c v).activity = s.activity := rfl

@[simp] theorem State.setPsgAtt_log (s : State) (c : BitVec 2) (v : Byte) :
    (s.setPsgAtt c v).log = s.log := rfl

/-! ### `setKon` -/

@[simp] theorem State.setKon_cfg (s : State) (v : Fin 10) (b : Bool) :
    (s.setKon v b).cfg = s.cfg := rfl

@[simp] theorem State.setKon_setupOk (s : State) (v : Fin 10) (b : Bool) :
    (s.setKon v b).setupOk = s.setupOk := rfl

@[simp] theorem State.setKon_hwcc (s : State) (v : Fin 10) (b : Bool) :
    (s.setKon v b).hwcc = s.hwcc := rfl

@[simp] theorem State.setKon_ticks (s : State) (v : Fin 10) (b : Bool) :
    (s.setKon v b).ticks = s.ticks := rfl

@[simp] theorem State.setKon_agenda (s : State) (v : Fin 10) (b : Bool) :
    (s.setKon v b).agenda = s.agenda := rfl

@[simp] theorem State.setKon_ser (s : State) (v : Fin 10) (b : Bool) :
    (s.setKon v b).ser = s.ser := rfl

@[simp] theorem State.setKon_mix (s : State) (v : Fin 10) (b : Bool) :
    (s.setKon v b).mix = s.mix := rfl

@[simp] theorem State.setKon_trk (s : State) (v : Fin 10) (b : Bool) :
    (s.setKon v b).trk = s.trk := rfl

@[simp] theorem State.setKon_cmdPc (s : State) (v : Fin 10) (b : Bool) :
    (s.setKon v b).cmdPc = s.cmdPc := rfl

@[simp] theorem State.setKon_ctl (s : State) (v : Fin 10) (b : Bool) :
    (s.setKon v b).ctl = s.ctl := rfl

@[simp] theorem State.setKon_clk (s : State) (v : Fin 10) (b : Bool) :
    (s.setKon v b).clk = s.clk := rfl

@[simp] theorem State.setKon_req (s : State) (v : Fin 10) (b : Bool) :
    (s.setKon v b).req = s.req := rfl

@[simp] theorem State.setKon_status (s : State) (v : Fin 10) (b : Bool) :
    (s.setKon v b).status = s.status := rfl

@[simp] theorem State.setKon_stopped (s : State) (v : Fin 10) (b : Bool) :
    (s.setKon v b).stopped = s.stopped := rfl

@[simp] theorem State.setKon_fault (s : State) (v : Fin 10) (b : Bool) :
    (s.setKon v b).fault = s.fault := rfl

@[simp] theorem State.setKon_seq (s : State) (v : Fin 10) (b : Bool) :
    (s.setKon v b).seq = s.seq := rfl

@[simp] theorem State.setKon_lastSeq (s : State) (v : Fin 10) (b : Bool) :
    (s.setKon v b).lastSeq = s.lastSeq := rfl

@[simp] theorem State.setKon_act (s : State) (v : Fin 10) (b : Bool) :
    (s.setKon v b).act = s.act := rfl

@[simp] theorem State.setKon_slots (s : State) (v : Fin 10) (b : Bool) :
    (s.setKon v b).slots = s.slots := rfl

@[simp] theorem State.setKon_cmdq (s : State) (v : Fin 10) (b : Bool) :
    (s.setKon v b).cmdq = s.cmdq := rfl

@[simp] theorem State.setKon_pcmq (s : State) (v : Fin 10) (b : Bool) :
    (s.setKon v b).pcmq = s.pcmq := rfl

@[simp] theorem State.setKon_activity (s : State) (v : Fin 10) (b : Bool) :
    (s.setKon v b).activity = s.activity.set v { s.activityAt v with kon := b } := rfl

@[simp] theorem State.setKon_log (s : State) (v : Fin 10) (b : Bool) :
    (s.setKon v b).log = s.log := rfl

/-! ### `setParam` -/

@[simp] theorem State.setParam_cfg (s : State) (v : Fin 10) :
    (s.setParam v).cfg = s.cfg := rfl

@[simp] theorem State.setParam_setupOk (s : State) (v : Fin 10) :
    (s.setParam v).setupOk = s.setupOk := rfl

@[simp] theorem State.setParam_hwcc (s : State) (v : Fin 10) :
    (s.setParam v).hwcc = s.hwcc := rfl

@[simp] theorem State.setParam_ticks (s : State) (v : Fin 10) :
    (s.setParam v).ticks = s.ticks := rfl

@[simp] theorem State.setParam_agenda (s : State) (v : Fin 10) :
    (s.setParam v).agenda = s.agenda := rfl

@[simp] theorem State.setParam_ser (s : State) (v : Fin 10) :
    (s.setParam v).ser = s.ser := rfl

@[simp] theorem State.setParam_mix (s : State) (v : Fin 10) :
    (s.setParam v).mix = s.mix := rfl

@[simp] theorem State.setParam_trk (s : State) (v : Fin 10) :
    (s.setParam v).trk = s.trk := rfl

@[simp] theorem State.setParam_cmdPc (s : State) (v : Fin 10) :
    (s.setParam v).cmdPc = s.cmdPc := rfl

@[simp] theorem State.setParam_ctl (s : State) (v : Fin 10) :
    (s.setParam v).ctl = s.ctl := rfl

@[simp] theorem State.setParam_clk (s : State) (v : Fin 10) :
    (s.setParam v).clk = s.clk := rfl

@[simp] theorem State.setParam_req (s : State) (v : Fin 10) :
    (s.setParam v).req = s.req := rfl

@[simp] theorem State.setParam_status (s : State) (v : Fin 10) :
    (s.setParam v).status = s.status := rfl

@[simp] theorem State.setParam_stopped (s : State) (v : Fin 10) :
    (s.setParam v).stopped = s.stopped := rfl

@[simp] theorem State.setParam_fault (s : State) (v : Fin 10) :
    (s.setParam v).fault = s.fault := rfl

@[simp] theorem State.setParam_seq (s : State) (v : Fin 10) :
    (s.setParam v).seq = s.seq := rfl

@[simp] theorem State.setParam_lastSeq (s : State) (v : Fin 10) :
    (s.setParam v).lastSeq = s.lastSeq := rfl

@[simp] theorem State.setParam_act (s : State) (v : Fin 10) :
    (s.setParam v).act = s.act := rfl

@[simp] theorem State.setParam_slots (s : State) (v : Fin 10) :
    (s.setParam v).slots = s.slots := rfl

@[simp] theorem State.setParam_cmdq (s : State) (v : Fin 10) :
    (s.setParam v).cmdq = s.cmdq := rfl

@[simp] theorem State.setParam_pcmq (s : State) (v : Fin 10) :
    (s.setParam v).pcmq = s.pcmq := rfl

@[simp] theorem State.setParam_activity (s : State) (v : Fin 10) :
    (s.setParam v).activity = s.activity.set v { s.activityAt v with param := true } := rfl

@[simp] theorem State.setParam_log (s : State) (v : Fin 10) :
    (s.setParam v).log = s.log := rfl

/-! ### `setDac` -/

@[simp] theorem State.setDac_cfg (s : State) (v : Fin 10) (b : Bool) :
    (s.setDac v b).cfg = s.cfg := rfl

@[simp] theorem State.setDac_setupOk (s : State) (v : Fin 10) (b : Bool) :
    (s.setDac v b).setupOk = s.setupOk := rfl

@[simp] theorem State.setDac_hwcc (s : State) (v : Fin 10) (b : Bool) :
    (s.setDac v b).hwcc = s.hwcc := rfl

@[simp] theorem State.setDac_ticks (s : State) (v : Fin 10) (b : Bool) :
    (s.setDac v b).ticks = s.ticks := rfl

@[simp] theorem State.setDac_agenda (s : State) (v : Fin 10) (b : Bool) :
    (s.setDac v b).agenda = s.agenda := rfl

@[simp] theorem State.setDac_ser (s : State) (v : Fin 10) (b : Bool) :
    (s.setDac v b).ser = s.ser := rfl

@[simp] theorem State.setDac_mix (s : State) (v : Fin 10) (b : Bool) :
    (s.setDac v b).mix = s.mix := rfl

@[simp] theorem State.setDac_trk (s : State) (v : Fin 10) (b : Bool) :
    (s.setDac v b).trk = s.trk := rfl

@[simp] theorem State.setDac_cmdPc (s : State) (v : Fin 10) (b : Bool) :
    (s.setDac v b).cmdPc = s.cmdPc := rfl

@[simp] theorem State.setDac_ctl (s : State) (v : Fin 10) (b : Bool) :
    (s.setDac v b).ctl = s.ctl := rfl

@[simp] theorem State.setDac_clk (s : State) (v : Fin 10) (b : Bool) :
    (s.setDac v b).clk = s.clk := rfl

@[simp] theorem State.setDac_req (s : State) (v : Fin 10) (b : Bool) :
    (s.setDac v b).req = s.req := rfl

@[simp] theorem State.setDac_status (s : State) (v : Fin 10) (b : Bool) :
    (s.setDac v b).status = s.status := rfl

@[simp] theorem State.setDac_stopped (s : State) (v : Fin 10) (b : Bool) :
    (s.setDac v b).stopped = s.stopped := rfl

@[simp] theorem State.setDac_fault (s : State) (v : Fin 10) (b : Bool) :
    (s.setDac v b).fault = s.fault := rfl

@[simp] theorem State.setDac_seq (s : State) (v : Fin 10) (b : Bool) :
    (s.setDac v b).seq = s.seq := rfl

@[simp] theorem State.setDac_lastSeq (s : State) (v : Fin 10) (b : Bool) :
    (s.setDac v b).lastSeq = s.lastSeq := rfl

@[simp] theorem State.setDac_act (s : State) (v : Fin 10) (b : Bool) :
    (s.setDac v b).act = s.act := rfl

@[simp] theorem State.setDac_slots (s : State) (v : Fin 10) (b : Bool) :
    (s.setDac v b).slots = s.slots := rfl

@[simp] theorem State.setDac_cmdq (s : State) (v : Fin 10) (b : Bool) :
    (s.setDac v b).cmdq = s.cmdq := rfl

@[simp] theorem State.setDac_pcmq (s : State) (v : Fin 10) (b : Bool) :
    (s.setDac v b).pcmq = s.pcmq := rfl

@[simp] theorem State.setDac_activity (s : State) (v : Fin 10) (b : Bool) :
    (s.setDac v b).activity = s.activity.set v { s.activityAt v with dac := b } := rfl

@[simp] theorem State.setDac_log (s : State) (v : Fin 10) (b : Bool) :
    (s.setDac v b).log = s.log := rfl

/-! ### `modifySlot` -/

@[simp] theorem State.modifySlot_cfg (s : State) (k : Nat) (f : Slot → Slot) :
    (s.modifySlot k f).cfg = s.cfg := rfl

@[simp] theorem State.modifySlot_setupOk (s : State) (k : Nat) (f : Slot → Slot) :
    (s.modifySlot k f).setupOk = s.setupOk := rfl

@[simp] theorem State.modifySlot_hwcc (s : State) (k : Nat) (f : Slot → Slot) :
    (s.modifySlot k f).hwcc = s.hwcc := rfl

@[simp] theorem State.modifySlot_ticks (s : State) (k : Nat) (f : Slot → Slot) :
    (s.modifySlot k f).ticks = s.ticks := rfl

@[simp] theorem State.modifySlot_agenda (s : State) (k : Nat) (f : Slot → Slot) :
    (s.modifySlot k f).agenda = s.agenda := rfl

@[simp] theorem State.modifySlot_ser (s : State) (k : Nat) (f : Slot → Slot) :
    (s.modifySlot k f).ser = s.ser := rfl

@[simp] theorem State.modifySlot_mix (s : State) (k : Nat) (f : Slot → Slot) :
    (s.modifySlot k f).mix = s.mix := rfl

@[simp] theorem State.modifySlot_trk (s : State) (k : Nat) (f : Slot → Slot) :
    (s.modifySlot k f).trk = s.trk := rfl

@[simp] theorem State.modifySlot_cmdPc (s : State) (k : Nat) (f : Slot → Slot) :
    (s.modifySlot k f).cmdPc = s.cmdPc := rfl

@[simp] theorem State.modifySlot_ctl (s : State) (k : Nat) (f : Slot → Slot) :
    (s.modifySlot k f).ctl = s.ctl := rfl

@[simp] theorem State.modifySlot_clk (s : State) (k : Nat) (f : Slot → Slot) :
    (s.modifySlot k f).clk = s.clk := rfl

@[simp] theorem State.modifySlot_req (s : State) (k : Nat) (f : Slot → Slot) :
    (s.modifySlot k f).req = s.req := rfl

@[simp] theorem State.modifySlot_status (s : State) (k : Nat) (f : Slot → Slot) :
    (s.modifySlot k f).status = s.status := rfl

@[simp] theorem State.modifySlot_stopped (s : State) (k : Nat) (f : Slot → Slot) :
    (s.modifySlot k f).stopped = s.stopped := rfl

@[simp] theorem State.modifySlot_fault (s : State) (k : Nat) (f : Slot → Slot) :
    (s.modifySlot k f).fault = s.fault := rfl

@[simp] theorem State.modifySlot_seq (s : State) (k : Nat) (f : Slot → Slot) :
    (s.modifySlot k f).seq = s.seq := rfl

@[simp] theorem State.modifySlot_lastSeq (s : State) (k : Nat) (f : Slot → Slot) :
    (s.modifySlot k f).lastSeq = s.lastSeq := rfl

@[simp] theorem State.modifySlot_act (s : State) (k : Nat) (f : Slot → Slot) :
    (s.modifySlot k f).act = s.act := rfl

@[simp] theorem State.modifySlot_slots (s : State) (k : Nat) (f : Slot → Slot) :
    (s.modifySlot k f).slots = s.slots.modify k f := rfl

@[simp] theorem State.modifySlot_cmdq (s : State) (k : Nat) (f : Slot → Slot) :
    (s.modifySlot k f).cmdq = s.cmdq := rfl

@[simp] theorem State.modifySlot_pcmq (s : State) (k : Nat) (f : Slot → Slot) :
    (s.modifySlot k f).pcmq = s.pcmq := rfl

@[simp] theorem State.modifySlot_activity (s : State) (k : Nat) (f : Slot → Slot) :
    (s.modifySlot k f).activity = s.activity := rfl

@[simp] theorem State.modifySlot_log (s : State) (k : Nat) (f : Slot → Slot) :
    (s.modifySlot k f).log = s.log := rfl

/-! ### `freeSlot` -/

@[simp] theorem State.freeSlot_cfg (s : State) (k : Nat) :
    (s.freeSlot k).cfg = s.cfg := rfl

@[simp] theorem State.freeSlot_setupOk (s : State) (k : Nat) :
    (s.freeSlot k).setupOk = s.setupOk := rfl

@[simp] theorem State.freeSlot_hwcc (s : State) (k : Nat) :
    (s.freeSlot k).hwcc = s.hwcc := rfl

@[simp] theorem State.freeSlot_ticks (s : State) (k : Nat) :
    (s.freeSlot k).ticks = s.ticks := rfl

@[simp] theorem State.freeSlot_agenda (s : State) (k : Nat) :
    (s.freeSlot k).agenda = s.agenda := rfl

@[simp] theorem State.freeSlot_ser (s : State) (k : Nat) :
    (s.freeSlot k).ser = s.ser := rfl

@[simp] theorem State.freeSlot_mix (s : State) (k : Nat) :
    (s.freeSlot k).mix = s.mix := rfl

@[simp] theorem State.freeSlot_trk (s : State) (k : Nat) :
    (s.freeSlot k).trk = s.trk := rfl

@[simp] theorem State.freeSlot_cmdPc (s : State) (k : Nat) :
    (s.freeSlot k).cmdPc = s.cmdPc := rfl

@[simp] theorem State.freeSlot_ctl (s : State) (k : Nat) :
    (s.freeSlot k).ctl = s.ctl := rfl

@[simp] theorem State.freeSlot_clk (s : State) (k : Nat) :
    (s.freeSlot k).clk = s.clk := rfl

@[simp] theorem State.freeSlot_req (s : State) (k : Nat) :
    (s.freeSlot k).req = s.req := rfl

@[simp] theorem State.freeSlot_status (s : State) (k : Nat) :
    (s.freeSlot k).status = s.status := rfl

@[simp] theorem State.freeSlot_stopped (s : State) (k : Nat) :
    (s.freeSlot k).stopped = s.stopped := rfl

@[simp] theorem State.freeSlot_fault (s : State) (k : Nat) :
    (s.freeSlot k).fault = s.fault := rfl

@[simp] theorem State.freeSlot_seq (s : State) (k : Nat) :
    (s.freeSlot k).seq = s.seq := rfl

@[simp] theorem State.freeSlot_lastSeq (s : State) (k : Nat) :
    (s.freeSlot k).lastSeq = s.lastSeq := rfl

@[simp] theorem State.freeSlot_act (s : State) (k : Nat) :
    (s.freeSlot k).act = s.act := rfl

@[simp] theorem State.freeSlot_slots (s : State) (k : Nat) :
    (s.freeSlot k).slots = s.slots.modify k fun x => { x with free := true } := rfl

@[simp] theorem State.freeSlot_cmdq (s : State) (k : Nat) :
    (s.freeSlot k).cmdq = s.cmdq := rfl

@[simp] theorem State.freeSlot_pcmq (s : State) (k : Nat) :
    (s.freeSlot k).pcmq = s.pcmq := rfl

@[simp] theorem State.freeSlot_activity (s : State) (k : Nat) :
    (s.freeSlot k).activity = s.activity := rfl

@[simp] theorem State.freeSlot_log (s : State) (k : Nat) :
    (s.freeSlot k).log = s.log := rfl

end Sys2Proof.Machine
end

