-- ==== Sys2Proof/Laws/Serializer.lean ====
section
/-! SUPPORT. What the serializer's operations do: each primitive's frames, its chip events, and the invariant it
keeps, once for every signal map. -/

namespace Sys2Proof.Machine

/-! ### Signals -/

/-- The bits of distinct signals are distinct (40_bus_serializer.md R132). -/
theorem RevMap.bit_injective {r : RevMap} (h : r.Wf) (S T : Signal) : r.bit S = r.bit T ↔ S = T := by
  simp only [RevMap.Wf, List.nodup_cons, List.mem_cons, List.not_mem_nil, or_false, not_or] at h
  obtain ⟨⟨h1, h2, h3, h4, h5⟩, ⟨h6, h7, h8, h9⟩, ⟨h10, h11, h12⟩, ⟨h13, h14⟩, h15, -⟩ := h
  constructor
  · intro e
    cases S <;> cases T <;> simp only [RevMap.bit] at e <;>
      first | rfl | exact absurd e (by assumption) | exact absurd e.symm (by assumption)
  · rintro rfl
    rfl

/-- The mask of a signal has just its own bit. -/
theorem sigOf_sigMask {r : RevMap} (h : r.Wf) (S T : Signal) : sigOf r S (sigMask r T) = decide (S = T) := by
  have hb := RevMap.bit_injective h S T
  have h8 := (r.bit S).isLt
  simp only [sigOf, sigMask, BitVec.getLsbD_shiftLeft, BitVec.getLsbD_one, h8, decide_true, Bool.true_and]
  by_cases e : S = T
  · subst e; simp
  · have : (r.bit S).val ≠ (r.bit T).val := fun q => e (hb.1 (Fin.ext q))
    simp only [e, decide_false, Bool.and_eq_false_iff, Bool.not_eq_false', decide_eq_true_eq, decide_eq_false_iff_not]
    omega

@[simp] theorem sigOf_and (r : RevMap) (S : Signal) (a b : Byte) :
    sigOf r S (a &&& b) = (sigOf r S a && sigOf r S b) := by simp [sigOf]

@[simp] theorem sigOf_or (r : RevMap) (S : Signal) (a b : Byte) :
    sigOf r S (a ||| b) = (sigOf r S a || sigOf r S b) := by simp [sigOf]

@[simp] theorem sigOf_not (r : RevMap) (S : Signal) (a : Byte) : sigOf r S (~~~a) = !sigOf r S a := by
  simp [sigOf]

@[simp] theorem sigOf_zero (r : RevMap) (S : Signal) : sigOf r S 0 = false := by simp [sigOf]

/-- `Set(S, b)` on a control byte (40_bus_serializer.md R134). -/
def setCtrl (r : RevMap) (S : Signal) (b : Bool) (c : Byte) : Byte :=
  if b then c ||| sigMask r S else c &&& ~~~ sigMask r S

/-- What an edit of one signal leaves of each signal (40_bus_serializer.md R134). -/
theorem sigOf_setCtrl {r : RevMap} (h : r.Wf) (S T : Signal) (b : Bool) (c : Byte) :
    sigOf r S (setCtrl r T b c) = if S = T then b else sigOf r S c := by
  cases b <;> by_cases e : S = T <;> simp [setCtrl, sigOf_sigMask h, e]

theorem usedMask_bits (r : RevMap) (S : Signal) : sigMask r S &&& ~~~ usedMask r = 0 := by
  ext k hk
  cases S <;> simp only [usedMask, BitVec.getElem_and, BitVec.getElem_not, BitVec.getElem_or] <;>
    simp <;> intro h <;> simp [h]

/-- No edit touches an unused bit (40_bus_serializer.md R137). -/
theorem setCtrl_unused (r : RevMap) (T : Signal) (b : Bool) (c : Byte) :
    setCtrl r T b c &&& ~~~ usedMask r = c &&& ~~~ usedMask r := by
  have hm := usedMask_bits r T
  have hk : ∀ k, (sigMask r T).getLsbD k = true → (~~~ usedMask r).getLsbD k = false := by
    intro k q
    have := congrArg (fun x : Byte => x.getLsbD k) hm
    simpa [q] using this
  ext k hlt
  have := hk k
  rw [← BitVec.getLsbD_eq_getElem, ← BitVec.getLsbD_eq_getElem]
  cases b <;> simp only [setCtrl, BitVec.getLsbD_and, BitVec.getLsbD_or, BitVec.getLsbD_not, if_true, if_false,
    Bool.false_eq_true, hlt, decide_true, Bool.true_and] at this ⊢ <;>
    cases hs : (sigMask r T).getLsbD k <;> simp [hs] at this ⊢ <;> simp [this]

theorem idleCtrl_idle {r : RevMap} (h : r.Wf) : CtrlIdle r (idleCtrl r) := by
  refine ⟨?_, ?_, ?_, ?_, ?_⟩
  · simp [idleCtrl, sigOf_sigMask h]
  · simp [idleCtrl, sigOf_sigMask h]
  · simp [idleCtrl, sigOf_sigMask h]
  · simp [idleCtrl, sigOf_sigMask h]
  · ext k hk
    simp only [idleCtrl, usedMask, BitVec.getElem_and, BitVec.getElem_not, BitVec.getElem_or]
    cases (sigMask r .psgCs)[k] <;> cases (sigMask r .fmCs)[k] <;> cases (sigMask r .wr)[k] <;>
      cases (sigMask r .ic)[k] <;> simp

/-! ### Events -/

theorem eventsFrom_append (r : RevMap) (p : Frame) (a b : List Frame) :
    eventsFrom r p (a ++ b) = eventsFrom r p a ++ eventsFrom r (a.getLast?.getD p) b := by
  induction a generalizing p with
  | nil => rfl
  | cons f rest ih =>
    simp only [List.cons_append, eventsFrom, ih, List.append_assoc]
    cases rest <;> simp [List.getLast?_cons]

/-- The events of a longer bus (40_bus_serializer.md R147). -/
theorem chipEvents_append (r : RevMap) (a b : List Frame) :
    chipEvents r (a ++ b) = chipEvents r a ++ eventsFrom r (lastFrame r a) b := by
  simp [chipEvents, lastFrame, eventsFrom_append]

theorem lastFrame_append (r : RevMap) (a b : List Frame) (f : Frame) :
    lastFrame r (a ++ b ++ [f]) = f := by simp [lastFrame]

/-! ### The primitives as frames -/

/-- The control bytes of `WritePsgByte` (40_bus_serializer.md R138). -/
def psgFrames (r : RevMap) (c : Byte) (v : Byte) : List Frame :=
  let c1 := setCtrl r .wr false (setCtrl r .psgCs false c)
  let c2 := setCtrl r .wr true c1
  let c3 := setCtrl r .psgCs true c2
  [⟨c1, bitrev8 v⟩, ⟨c2, bitrev8 v⟩, ⟨c3, bitrev8 v⟩]

/-- The control bytes of `WriteFmRegister` (40_bus_serializer.md R140). -/
def fmFrames (r : RevMap) (c : Byte) (port reg val : Byte) : List Frame :=
  let c1 := setCtrl r .fmCs false (setCtrl r .a0 false (setCtrl r .a1 (port.getLsbD 0) c))
  let c2 := setCtrl r .wr false c1
  let c3 := setCtrl r .wr true c2
  let c4 := setCtrl r .a0 true c3
  let c5 := setCtrl r .wr false c4
  let c6 := setCtrl r .wr true c5
  let c7 := setCtrl r .fmCs true c6
  [⟨c1, reg⟩, ⟨c2, reg⟩, ⟨c3, reg⟩, ⟨c4, val⟩, ⟨c5, val⟩, ⟨c6, val⟩, ⟨c7, val⟩]

/-- The two frames of the reset pulse (40_bus_serializer.md R142). -/
def pulseFrames (r : RevMap) (x : Latch) : List Frame :=
  let c1 := setCtrl r .ic false x.ctrl
  let c2 := setCtrl r .ic true c1
  [⟨c1, x.data⟩, ⟨c2, x.data⟩]

/-- The latch that the last of a primitive's frames was sent from. -/
def latchAfter (x : Latch) (fs : List Frame) : Latch :=
  match fs.getLast? with
  | some f => ⟨f.ctrl, f.data⟩
  | none => x

/-- Sending frames: the latch ends as the last of them. -/
def Ser.send (fs : List Frame) (x : Ser) : Ser := ⟨latchAfter x.latch fs, x.bus ++ fs⟩

@[simp] theorem Ser.send_bus (fs : List Frame) (x : Ser) : (x.send fs).bus = x.bus ++ fs := rfl

theorem Ser.assertSig_eq (r : RevMap) (S : Signal) (x : Ser) :
    x.assertSig r S = ⟨⟨setCtrl r S false x.latch.ctrl, x.latch.data⟩, x.bus⟩ := rfl

theorem Ser.releaseSig_eq (r : RevMap) (S : Signal) (x : Ser) :
    x.releaseSig r S = ⟨⟨setCtrl r S true x.latch.ctrl, x.latch.data⟩, x.bus⟩ := rfl

theorem Ser.setSig_eq (r : RevMap) (S : Signal) (b : Bool) (x : Ser) :
    x.setSig r S b = ⟨⟨setCtrl r S b x.latch.ctrl, x.latch.data⟩, x.bus⟩ := by cases b <;> rfl

/-- `WritePsgByte` sends its three frames and does nothing else (40_bus_serializer.md R138, R144). -/
theorem Ser.writePsgByte_eq (cfg : Cfg) (v : Byte) (x : Ser) :
    x.writePsgByte cfg v = x.send (psgFrames cfg.rev x.latch.ctrl v) := by
  simp [Ser.writePsgByte, Ser.send, psgFrames, latchAfter, Ser.hold, Ser.transmit, Ser.releaseSig_eq,
    Ser.assertSig_eq, Ser.setData]

/-- `WriteFmRegister` sends its seven frames and does nothing else (40_bus_serializer.md R140, R144). -/
theorem Ser.writeFmRegister_eq (cfg : Cfg) (port reg val : Byte) (x : Ser) :
    x.writeFmRegister cfg port reg val = x.send (fmFrames cfg.rev x.latch.ctrl port reg val) := by
  simp [Ser.writeFmRegister, Ser.send, fmFrames, latchAfter, Ser.hold, Ser.transmit, Ser.releaseSig_eq,
    Ser.assertSig_eq, Ser.setData, Ser.setSig_eq]

/-- `ResetChips` sends the reset pulse, then the four PSG silence writes (40_bus_serializer.md R142). -/
theorem Ser.resetChips_eq (cfg : Cfg) (x : Ser) :
    x.resetChips cfg =
      ((((x.send (pulseFrames cfg.rev x.latch)).writePsgByte cfg 0x9F).writePsgByte cfg 0xBF).writePsgByte cfg
        0xDF).writePsgByte cfg 0xFF := by
  have h : ((((x.assertSig cfg.rev .ic).transmit).hold cfg.tReset).releaseSig cfg.rev .ic).transmit =
      x.send (pulseFrames cfg.rev x.latch) := by
    simp [Ser.send, pulseFrames, latchAfter, Ser.hold, Ser.transmit, Ser.releaseSig_eq, Ser.assertSig_eq]
  simp only [Ser.resetChips, List.foldl_cons, List.foldl_nil]
  rw [h]
  rfl

/-! ### What a primitive does to an idle serializer -/

/-- Sending frames `fs`, the last of them with an idle control byte, keeps the serializer ready, and keeps its
invariant when the frames are legal. -/
theorem SerReady.send {r : RevMap} {x : Ser} {fs : List Frame} {f : Frame} (hl : fs.getLast? = some f)
    (hf : CtrlIdle r f.ctrl) : SerReady r (x.send fs) := by
  refine ⟨?_, ?_⟩
  · simpa [Ser.send, latchAfter, hl] using hf
  · simp [Ser.send, latchAfter, hl, lastFrame, List.getLast?_append]

theorem CtrlIdle.setLevel {r : RevMap} (h : r.Wf) {c : Byte} (hc : CtrlIdle r c) (b : Bool) (T : Signal)
    (hT : T = .a0 ∨ T = .a1) : CtrlIdle r (setCtrl r T b c) := by
  obtain ⟨h1, h2, h3, h4, h5⟩ := hc
  rcases hT with rfl | rfl <;> simp [CtrlIdle, sigOf_setCtrl h, setCtrl_unused, *]

section
variable {r : RevMap} (h : r.Wf) {c : Byte} (hc : CtrlIdle r c)
include h hc

/-- The last frame of a PSG write is idle again (40_bus_serializer.md R143). -/
theorem psgFrames_last (v : Byte) : ∃ f, (psgFrames r c v).getLast? = some f ∧ CtrlIdle r f.ctrl := by
  obtain ⟨h1, h2, h3, h4, h5⟩ := hc
  refine ⟨_, rfl, ?_⟩
  simp [CtrlIdle, sigOf_setCtrl h, setCtrl_unused, *]

/-- The last frame of an FM write is idle again (40_bus_serializer.md R143). -/
theorem fmFrames_last (port reg val : Byte) :
    ∃ f, (fmFrames r c port reg val).getLast? = some f ∧ CtrlIdle r f.ctrl := by
  obtain ⟨h1, h2, h3, h4, h5⟩ := hc
  refine ⟨_, rfl, ?_⟩
  simp [CtrlIdle, sigOf_setCtrl h, setCtrl_unused, *]

/-- The three frames of a PSG write are legal (40_bus_serializer.md R148). -/
theorem psgFrames_legal (v : Byte) : ∀ f ∈ psgFrames r c v, FrameLegal r f := by
  obtain ⟨h1, h2, h3, h4, h5⟩ := hc
  simp [psgFrames, FrameLegal, sigOf_setCtrl h, setCtrl_unused, *]

/-- The seven frames of an FM write are legal (40_bus_serializer.md R148). -/
theorem fmFrames_legal (port reg val : Byte) : ∀ f ∈ fmFrames r c port reg val, FrameLegal r f := by
  obtain ⟨h1, h2, h3, h4, h5⟩ := hc
  simp [fmFrames, FrameLegal, sigOf_setCtrl h, setCtrl_unused, *]

/-- A PSG write is one event, with the unreversed byte (40_bus_serializer.md R139, R147). -/
theorem psgFrames_events (p : Frame) (hp : p.ctrl = c) (v : Byte) :
    eventsFrom r p (psgFrames r c v) = [.psgByte v] := by
  obtain ⟨h1, h2, h3, h4, h5⟩ := hc
  have hr : bitrev8 (bitrev8 v) = v := by simp [bitrev8]
  simp [psgFrames, eventsFrom, frameEvents, sigOf_setCtrl h, *]

/-- An FM write is one address event and one data event (40_bus_serializer.md R147). -/
theorem fmFrames_events (p : Frame) (hp : p.ctrl = c) (port reg val : Byte) :
    eventsFrom r p (fmFrames r c port reg val) = fmEvents port reg val := by
  obtain ⟨h1, h2, h3, h4, h5⟩ := hc
  simp [fmFrames, eventsFrom, frameEvents, fmEvents, sigOf_setCtrl h, *]

end

section
variable {r : RevMap} (h : r.Wf) {x : Latch} (hc : CtrlIdle r x.ctrl)
include h hc

theorem pulseFrames_last : ∃ f, (pulseFrames r x).getLast? = some f ∧ CtrlIdle r f.ctrl := by
  obtain ⟨h1, h2, h3, h4, h5⟩ := hc
  refine ⟨_, rfl, ?_⟩
  simp [CtrlIdle, sigOf_setCtrl h, setCtrl_unused, *]

theorem pulseFrames_legal : ∀ f ∈ pulseFrames r x, FrameLegal r f := by
  obtain ⟨h1, h2, h3, h4, h5⟩ := hc
  simp [pulseFrames, FrameLegal, sigOf_setCtrl h, setCtrl_unused, *]

/-- The reset pulse is its two edges (40_bus_serializer.md R146). -/
theorem pulseFrames_events (p : Frame) (hp : p.ctrl = x.ctrl) :
    eventsFrom r p (pulseFrames r x) = [.resetLow, .resetHigh] := by
  obtain ⟨h1, h2, h3, h4, h5⟩ := hc
  simp [pulseFrames, eventsFrom, frameEvents, sigOf_setCtrl h, *]

end

/-! ### One lemma per primitive -/

/-- What a primitive does, said once: from a ready serializer it sends `n` frames, legal ones, whose events are
`evs`, and the serializer is ready again. -/
structure Emits (r : RevMap) (x y : Ser) (n : Nat) (evs : List ChipEvent) : Prop where
  ready : SerReady r y
  bus : ∃ fs, y.bus = x.bus ++ fs ∧ fs.length = n ∧ ∀ f ∈ fs, FrameLegal r f
  events : chipEvents r y.bus = chipEvents r x.bus ++ evs

theorem Emits.refl {r : RevMap} {x : Ser} (hx : SerReady r x) : Emits r x x 0 [] :=
  ⟨hx, ⟨[], by simp⟩, by simp⟩

theorem Emits.trans {r : RevMap} {x y z : Ser} {m n : Nat} {a b : List ChipEvent} (h1 : Emits r x y m a)
    (h2 : Emits r y z n b) : Emits r x z (m + n) (a ++ b) := by
  obtain ⟨f1, e1, l1, g1⟩ := h1.bus
  obtain ⟨f2, e2, l2, g2⟩ := h2.bus
  refine ⟨h2.ready, ⟨f1 ++ f2, by simp [e1, e2], by simp [l1, l2], ?_⟩, ?_⟩
  · intro f hf
    rcases List.mem_append.1 hf with hf | hf
    · exact g1 f hf
    · exact g2 f hf
  · rw [h2.events, h1.events, List.append_assoc]

/-- The invariant is kept by whatever a primitive sends (40_bus_serializer.md R148). -/
theorem Emits.inv {r : RevMap} {x y : Ser} {n : Nat} {evs : List ChipEvent} (h : Emits r x y n evs)
    (hx : SerInv r x) : SerInv r y := by
  obtain ⟨fs, e, -, g⟩ := h.bus
  refine ⟨h.ready, fun f hf => ?_⟩
  rw [e] at hf
  rcases List.mem_append.1 hf with hf | hf
  · exact hx.2 f hf
  · exact g f hf

theorem Emits.ofSend {r : RevMap} {x : Ser} {fs : List Frame} {evs : List ChipEvent}
    (hl : ∃ f, fs.getLast? = some f ∧ CtrlIdle r f.ctrl) (hg : ∀ f ∈ fs, FrameLegal r f)
    (he : eventsFrom r (lastFrame r x.bus) fs = evs) : Emits r x (x.send fs) fs.length evs := by
  obtain ⟨f, hl, hf⟩ := hl
  exact ⟨SerReady.send hl hf, ⟨fs, rfl, rfl, hg⟩, by rw [Ser.send_bus, chipEvents_append, he]⟩

/-- `WritePsgByte(v)`: three frames, the event `PSG(v)` (40_bus_serializer.md R138, R144, R147). -/
theorem Ser.writePsgByte_emits {cfg : Cfg} (h : cfg.rev.Wf) {x : Ser} (hx : SerReady cfg.rev x) (v : Byte) :
    Emits cfg.rev x (x.writePsgByte cfg v) 3 [.psgByte v] := by
  rw [Ser.writePsgByte_eq]
  exact Emits.ofSend (psgFrames_last h hx.1 v) (psgFrames_legal h hx.1 v) (psgFrames_events h hx.1 _ hx.2 v)

/-- `WriteFmRegister(port, reg, val)`: seven frames, the event pair `FM(port[0], reg, val)`
(40_bus_serializer.md R140, R141, R144, R147). -/
theorem Ser.writeFmRegister_emits {cfg : Cfg} (h : cfg.rev.Wf) {x : Ser} (hx : SerReady cfg.rev x)
    (port reg val : Byte) : Emits cfg.rev x (x.writeFmRegister cfg port reg val) 7 (fmEvents port reg val) := by
  rw [Ser.writeFmRegister_eq]
  exact Emits.ofSend (fmFrames_last h hx.1 port reg val) (fmFrames_legal h hx.1 port reg val)
    (fmFrames_events h hx.1 _ hx.2 port reg val)

/-- `ResetChips()`: fourteen frames, the reset pulse and the four silence bytes (40_bus_serializer.md R142, R144,
R147). -/
theorem Ser.resetChips_emits {cfg : Cfg} (h : cfg.rev.Wf) {x : Ser} (hx : SerReady cfg.rev x) :
    Emits cfg.rev x (x.resetChips cfg) 14 resetEvents := by
  rw [Ser.resetChips_eq]
  have e0 : Emits cfg.rev x (x.send (pulseFrames cfg.rev x.latch)) 2 [.resetLow, .resetHigh] :=
    Emits.ofSend (pulseFrames_last h hx.1) (pulseFrames_legal h hx.1) (pulseFrames_events h hx.1 _ hx.2)
  have e1 := e0.trans (Ser.writePsgByte_emits h e0.ready 0x9F)
  have e2 := e1.trans (Ser.writePsgByte_emits h e1.ready 0xBF)
  have e3 := e2.trans (Ser.writePsgByte_emits h e2.ready 0xDF)
  exact e3.trans (Ser.writePsgByte_emits h e3.ready 0xFF)

end Sys2Proof.Machine
end

