-- ==== Sys2Proof/Laws/Ops.lean ====
section
/-! SUPPORT. What each shared operation can do, said once: queues, fetch, muting pass, waits, DAC pops, stream
start, DAC tick, clock, raising of errors. -/

namespace Sys2Proof.Machine

open Host

/-! ### Reset -/

/-- The state after reset is what `Setup()` leaves under the default configuration (70_reset_and_hazards.md R361). -/
theorem reset_eq_setup : State.reset = setup Cfg.default true := by decide

/-- The state after reset meets the invariant's memory part. -/
theorem reset_memory_wf : Memory.wf State.reset = true := by decide

/-! ### Outcomes -/

@[simp] theorem andThen_next (s : State) (k : State → Outcome State Fault Refusal) : andThen (.next s) k = k s := rfl

/-- A sequence of two parts answers a next state just when both do. -/
theorem andThen_eq_next {o : Outcome State Fault Refusal} {k : State → Outcome State Fault Refusal} {t : State} :
    andThen o k = .next t ↔ ∃ s, o = .next s ∧ k s = .next t := by
  cases o <;> simp [andThen]

/-! ### Queues -/

@[simp] theorem Queue.pop_nil : Queue.pop [] = none := rfl

@[simp] theorem Queue.pop_cons (b : Byte) (q : List Byte) : Queue.pop (b :: q) = some (b, q) := rfl

theorem Queue.pop_eq_none {q : List Byte} : Queue.pop q = none ↔ q = [] := by cases q <;> simp

theorem Queue.pop_eq_some {q : List Byte} {b : Byte} {rest : List Byte} :
    Queue.pop q = some (b, rest) ↔ q = b :: rest := by cases q <;> simp

/-- `Push` never exceeds the capacity (20_memory.md R75). -/
theorem Queue.push_length {cap : Nat} {q : List Byte} (b : Byte) (h : q.length ≤ cap) :
    (Queue.push cap q b).1.length ≤ cap := by
  unfold Queue.push Queue.avail
  split <;> simp <;> omega

theorem Queue.push_full {cap : Nat} {q : List Byte} (b : Byte) (h : cap ≤ q.length) :
    Queue.push cap q b = (q, false) := by
  unfold Queue.push Queue.avail
  simp [Nat.not_lt.2 h]

theorem Queue.push_room {cap : Nat} {q : List Byte} (b : Byte) (h : q.length < cap) :
    Queue.push cap q b = (q ++ [b], true) := by
  unfold Queue.push Queue.avail
  simp [h]

/-- The pops of a fetch, where enough bytes are present (46_scheduler.md R287, 30_encoding.md R107). -/
theorem popCmds_eq (n : Nat) (s : State) (h : n ≤ s.cmdq.length) :
    popCmds n s = { s with cmdq := s.cmdq.drop n, cmdPc := s.cmdPc + BitVec.ofNat 32 n } := by
  induction n generalizing s with
  | zero => simp [popCmds]
  | succ n ih =>
    cases hq : s.cmdq with
    | nil => simp [hq] at h
    | cons b rest =>
      have h1 : popCmd s = { s with cmdq := rest, cmdPc := s.cmdPc + 1 } := by simp [popCmd, hq]
      have h2 : n ≤ rest.length := by simpa [hq] using h
      rw [popCmds, h1, ih _ (by simpa using h2)]
      have e : s.cmdPc + 1#32 + BitVec.ofNat 32 n = s.cmdPc + BitVec.ofNat 32 (n + 1) := by
        apply BitVec.eq_of_toNat_eq
        simp only [BitVec.toNat_add, BitVec.toNat_ofNat]
        omega
      simp only [List.drop_succ_cons, State.mk.injEq, true_and, and_true]
      exact e

/-- A successful fetch (46_scheduler.md R287). -/
theorem fetched_eq (n : Nat) (s : State) (h : n ≤ s.cmdq.length) :
    fetched n s =
      { s with
        cmdq := s.cmdq.drop n
        cmdPc := s.cmdPc + BitVec.ofNat 32 n
        status := { s.status with cmdUnderrun := false } } := by
  simp [fetched, popCmds_eq n s h]

/-! ### Memory keeps its one form -/

theorem Memory.wf_iff (s : State) :
    Memory.wf s = true ↔ s.cmdq.length ≤ s.cfg.cmdCap ∧ s.pcmq.length ≤ s.cfg.pcmCap ∧
      ∀ x ∈ s.slots, x.queue.length ≤ s.cfg.slotCap := by
  simp [Memory.wf, and_assoc]

/-- Only the queues and the capacities count. -/
theorem Memory.wf_congr {s t : State} (h1 : t.cmdq = s.cmdq) (h2 : t.pcmq = s.pcmq) (h3 : t.slots = s.slots)
    (h4 : t.cfg = s.cfg) : Memory.wf t = Memory.wf s := by simp [Memory.wf, *]

theorem Memory.wf_popCmd {s : State} (h : Memory.wf s = true) : Memory.wf (popCmd s) = true := by
  cases hq : s.cmdq with
  | nil => simpa [popCmd, hq] using h
  | cons b rest =>
    rw [Memory.wf_iff] at h ⊢
    simp only [popCmd, hq, Queue.pop_cons, List.length_cons] at h ⊢
    exact ⟨by omega, h.2⟩

theorem Memory.wf_popCmds {s : State} (n : Nat) (h : Memory.wf s = true) : Memory.wf (popCmds n s) = true := by
  induction n generalizing s with
  | zero => exact h
  | succ n ih => exact ih (Memory.wf_popCmd h)

theorem Memory.wf_pushCmd {s : State} (b : Byte) (h : Memory.wf s = true) :
    Memory.wf { s with cmdq := (Queue.push s.cfg.cmdCap s.cmdq b).1 } = true := by
  rw [Memory.wf_iff] at h ⊢
  exact ⟨Queue.push_length b h.1, h.2⟩

theorem Memory.wf_pushPcm {s : State} (b : Byte) (h : Memory.wf s = true) :
    Memory.wf { s with pcmq := (Queue.push s.cfg.pcmCap s.pcmq b).1 } = true := by
  rw [Memory.wf_iff] at h ⊢
  exact ⟨h.1, Queue.push_length b h.2.1, h.2.2⟩

theorem Memory.wf_flushCmd {s : State} (h : Memory.wf s = true) :
    Memory.wf { s with cmdq := Queue.flush s.cmdq } = true := by
  rw [Memory.wf_iff] at h ⊢
  exact ⟨Nat.zero_le _, h.2⟩

theorem Memory.wf_flushPcm {s : State} (h : Memory.wf s = true) :
    Memory.wf { s with pcmq := Queue.flush s.pcmq } = true := by
  rw [Memory.wf_iff] at h ⊢
  exact ⟨h.1, Nat.zero_le _, h.2.2⟩

/-- A slot update that keeps its queue within capacity keeps the memory's form. -/
theorem Memory.wf_modifySlot {s : State} (k : Nat) {f : Slot → Slot} (h : Memory.wf s = true)
    (hf : ∀ x ∈ s.slots, x.queue.length ≤ s.cfg.slotCap → (f x).queue.length ≤ s.cfg.slotCap) :
    Memory.wf (s.modifySlot k f) = true := by
  rw [Memory.wf_iff] at h ⊢
  refine ⟨h.1, h.2.1, fun x hx => ?_⟩
  rw [State.modifySlot_slots] at hx
  obtain ⟨j, hj, rfl⟩ := List.getElem_of_mem hx
  simp only [List.length_modify] at hj
  have hm := h.2.2 s.slots[j] (List.getElem_mem hj)
  rw [List.getElem_modify]
  split
  · exact hf _ (List.getElem_mem hj) hm
  · exact hm

/-! ### The muting pass -/

@[simp] theorem fmPanOut_ser (s : State) (x : Ser) (i : Fin 6) (force : Bool) :
    State.fmPanOut { s with ser := x } i force = s.fmPanOut i force := rfl

@[simp] theorem psgAttOut_ser (s : State) (x : Ser) (c : BitVec 2) (force : Bool) :
    State.psgAttOut { s with ser := x } c force = s.psgAttOut c force := rfl

/-- The ten addresses of a muting pass (41_mix_engine.md R165). -/
theorem fmPanAddr_values :
    (fmPanPort 0 = 0 ∧ fmPanPort 1 = 0 ∧ fmPanPort 2 = 0 ∧ fmPanPort 3 = 1 ∧ fmPanPort 4 = 1 ∧ fmPanPort 5 = 1) ∧
    (fmPanReg 0 = 0xB4 ∧ fmPanReg 1 = 0xB5 ∧ fmPanReg 2 = 0xB6 ∧ fmPanReg 3 = 0xB4 ∧ fmPanReg 4 = 0xB5 ∧
      fmPanReg 5 = 0xB6) := by decide

/-- The six FM writes of a muting pass (41_mix_engine.md R166). -/
def Ser.emitPans (cfg : Cfg) (fm : Fin 6 → Byte) (x : Ser) : Ser :=
  (((((x.writeFmRegister cfg 0 0xB4 (fm 0)).writeFmRegister cfg 0 0xB5 (fm 1)).writeFmRegister cfg 0 0xB6
    (fm 2)).writeFmRegister cfg 1 0xB4 (fm 3)).writeFmRegister cfg 1 0xB5 (fm 4)).writeFmRegister cfg 1 0xB6 (fm 5)

/-- The four PSG writes of a muting pass (41_mix_engine.md R166). -/
def Ser.emitAtts (cfg : Cfg) (psg : BitVec 2 → Byte) (x : Ser) : Ser :=
  (((x.writePsgByte cfg (psg 0)).writePsgByte cfg (psg 1)).writePsgByte cfg (psg 2)).writePsgByte cfg (psg 3)

theorem Ser.emitMuting_eq (cfg : Cfg) (fm : Fin 6 → Byte) (psg : BitVec 2 → Byte) (x : Ser) :
    x.emitMuting cfg fm psg = (x.emitPans cfg fm).emitAtts cfg psg := by
  obtain ⟨⟨p0, p1, p2, p3, p4, p5⟩, r0, r1, r2, r3, r4, r5⟩ := fmPanAddr_values
  simp only [Ser.emitMuting, Ser.emitPans, Ser.emitAtts, List.foldl_cons, List.foldl_nil, p0, p1, p2, p3, p4, p5,
    r0, r1, r2, r3, r4, r5]

theorem Ser.emitPans_emits {cfg : Cfg} (hw : cfg.rev.Wf) {x : Ser} (hr : SerReady cfg.rev x) (fm : Fin 6 → Byte) :
    Emits cfg.rev x (x.emitPans cfg fm) 42
      (fmEvents 0 0xB4 (fm 0) ++ fmEvents 0 0xB5 (fm 1) ++ fmEvents 0 0xB6 (fm 2) ++
        fmEvents 1 0xB4 (fm 3) ++ fmEvents 1 0xB5 (fm 4) ++ fmEvents 1 0xB6 (fm 5)) := by
  have e1 := Ser.writeFmRegister_emits hw hr 0 0xB4 (fm 0)
  have e2 := e1.trans (Ser.writeFmRegister_emits hw e1.ready 0 0xB5 (fm 1))
  have e3 := e2.trans (Ser.writeFmRegister_emits hw e2.ready 0 0xB6 (fm 2))
  have e4 := e3.trans (Ser.writeFmRegister_emits hw e3.ready 1 0xB4 (fm 3))
  have e5 := e4.trans (Ser.writeFmRegister_emits hw e4.ready 1 0xB5 (fm 4))
  exact e5.trans (Ser.writeFmRegister_emits hw e5.ready 1 0xB6 (fm 5))

theorem Ser.emitAtts_emits {cfg : Cfg} (hw : cfg.rev.Wf) {x : Ser} (hr : SerReady cfg.rev x)
    (psg : BitVec 2 → Byte) :
    Emits cfg.rev x (x.emitAtts cfg psg) 12
      [.psgByte (psg 0), .psgByte (psg 1), .psgByte (psg 2), .psgByte (psg 3)] := by
  have e7 := Ser.writePsgByte_emits hw hr (psg 0)
  have e8 := e7.trans (Ser.writePsgByte_emits hw e7.ready (psg 1))
  have e9 := e8.trans (Ser.writePsgByte_emits hw e8.ready (psg 2))
  exact e9.trans (Ser.writePsgByte_emits hw e9.ready (psg 3))

/-- The writes of a muting pass: 54 frames, the ten events of the pass (41_mix_engine.md R166,
40_bus_serializer.md R144). -/
theorem Ser.emitMuting_emits {cfg : Cfg} (hw : cfg.rev.Wf) {x : Ser} (hr : SerReady cfg.rev x) (fm : Fin 6 → Byte)
    (psg : BitVec 2 → Byte) : Emits cfg.rev x (x.emitMuting cfg fm psg) 54 (mutingEvents fm psg) := by
  have e1 := Ser.emitPans_emits hw hr fm
  rw [Ser.emitMuting_eq]
  exact e1.trans (Ser.emitAtts_emits hw e1.ready psg)

/-- `EmitMuting(force)` on a ready machine (41_mix_engine.md R166). -/
theorem emitMuting_emits {s : State} (h : BusReady s) (force : Bool) :
    Emits s.cfg.rev s.ser (s.emitMuting force).ser 54
      (mutingEvents (fun i => s.fmPanOut i force) (fun c => s.psgAttOut c force)) := by
  have e := Ser.emitMuting_emits h.1 h.2 (fun i => s.fmPanOut i force) (fun c => s.psgAttOut c force)
  unfold State.emitMuting
  exact e

/-- `SetFirstWait(now)` (41_mix_engine.md R168): everything it writes. -/
theorem setFirstWait_eq (s : State) :
    s.setFirstWait =
      { s with
        clk := { s.clk with fwSeen := true, cyc := 0, lastHw := s.hwcc, sample := 0 }
        act := if s.act.active then { s.act with last := 0 } else s.act
        ser := s.setFirstWait.ser } := rfl

/-! ### Waits -/

/-- Everything `Wait(W, now)` can do (43_cmd_waits.md R220). -/
theorem waitSamples_cases (w : U32) (s : State) :
    ((w = 0 ∨ s.clk.fwSeen = true) ∧
      waitSamples w s = { s with clk := { s.clk with nextDue := s.clk.nextDue + w } }) ∨
    (w ≠ 0 ∧ s.clk.fwSeen = false ∧
      waitSamples w s = State.setFirstWait { s with clk := { s.clk with nextDue := s.clk.nextDue + w } }) := by
  by_cases hw : w = 0
  · exact .inl ⟨.inl hw, by simp [waitSamples, hw]⟩
  · cases hf : s.clk.fwSeen
    · exact .inr ⟨hw, rfl, if_pos ⟨hw, hf⟩⟩
    · exact .inl ⟨.inr rfl, by simp [waitSamples, hf]⟩

/-- Everything the DAC write of `DACW` can do (43_cmd_waits.md R225, R226). -/
theorem dacPop_cases (s : State) :
    (∃ b rest, s.pcmq = b :: rest ∧
      dacPop s =
        State.writeFmRegister 0 0x2A b
          { s with pcmq := rest, status := { s.status with pcmUnderrun := false } }) ∨
    (s.pcmq = [] ∧
      dacPop s =
        { s with
          status := { s.status with pcmUnderrun := true }
          log := s.log ++ [{ code := 2, info := 0 }] }) := by
  cases hq : s.pcmq with
  | nil => exact .inr ⟨rfl, by simp [dacPop, hq, State.raiseError, State.addLog]⟩
  | cons b rest => exact .inl ⟨b, rest, rfl, by simp [dacPop, hq]⟩

/-! ### Streams -/

/-- Everything `StreamStart()` can do (44_cmd_dac_stream.md R249): no slot holds the new sequence, or the lowest
such slot is activated. -/
theorem streamStart_cases (s : State) :
    (findSlot (retireSkipped { s with seq := s.seq + 1 }) = none ∧
      streamStart s = (retireSkipped { s with seq := s.seq + 1 }).addLog 4 (s.seq + 1)) ∨
    (∃ m, findSlot (retireSkipped { s with seq := s.seq + 1 }) = some m ∧
      streamStart s = activateSlot m (freeReplaced (retireSkipped { s with seq := s.seq + 1 }))) := by
  have he : streamStart s =
      match findSlot (retireSkipped { s with seq := s.seq + 1 }) with
      | none => (retireSkipped { s with seq := s.seq + 1 }).addLog 4 (s.seq + 1)
      | some m => activateSlot m (freeReplaced (retireSkipped { s with seq := s.seq + 1 })) := rfl
  rw [he]
  cases findSlot (retireSkipped { s with seq := s.seq + 1 }) with
  | none => exact .inl ⟨rfl, rfl⟩
  | some m => exact .inr ⟨m, rfl, rfl⟩

/-- A slot that is found is a slot of the pool, not free, and holds the sequence (44_cmd_dac_stream.md R249). -/
theorem findSlot_some {s : State} {m : Nat} (h : findSlot s = some m) :
    ∃ hm : m < s.slots.length, s.slots[m].free = false ∧ s.slots[m].sequence = s.seq ∧
      ∀ k, ∀ hk : k < m, s.slots[k].free = true ∨ s.slots[k].sequence ≠ s.seq := by
  obtain ⟨hm, h1, h2⟩ := List.findIdx?_eq_some_iff_getElem.1 h
  simp only [Bool.and_eq_true, Bool.not_eq_true', beq_iff_eq] at h1
  refine ⟨hm, h1.1, h1.2, ?_⟩
  intro k hk
  have := h2 k hk
  cases hf : s.slots[k].free <;> simp [hf] at this ⊢
  exact this

/-- Everything `DacTick()` can do (44_cmd_dac_stream.md R252): nothing, an underrun notice, or one byte. -/
theorem dacTick_cases (s : State) :
    (s.act.active = false ∧ dacTick s = s) ∨
    (s.act.active = true ∧ (s.slotAt s.act.slot).queue = [] ∧
      dacTick s = s.addLog logDacQueueEmpty (BitVec.ofNat 32 s.act.slot)) ∨
    (∃ b rest, s.act.active = true ∧ (s.slotAt s.act.slot).queue = b :: rest ∧ streamDue s = false ∧
      dacTick s = s) ∨
    (∃ b rest, s.act.active = true ∧ (s.slotAt s.act.slot).queue = b :: rest ∧ streamDue s = true ∧
      dacTick s = dacEmit b rest s) := by
  cases ha : s.act.active
  · exact .inl ⟨rfl, by simp [dacTick, ha]⟩
  · cases hq : (s.slotAt s.act.slot).queue with
    | nil => exact .inr (.inl ⟨rfl, rfl, by simp [dacTick, ha, hq]⟩)
    | cons b rest =>
      cases hd : streamDue s
      · exact .inr (.inr (.inl ⟨b, rest, rfl, rfl, rfl, by simp [dacTick, ha, hq, hd]⟩))
      · exact .inr (.inr (.inr ⟨b, rest, rfl, rfl, rfl, by simp [dacTick, ha, hq, hd]⟩))

/-- What emitting one stream byte leaves of the clock, the queues and the other registers, and what it sends
(44_cmd_dac_stream.md R252). -/
theorem dacEmit_frame (b : Byte) (rest : List Byte) (s : State) :
    dacEmit b rest s =
      { s with
        ser := s.ser.writeFmRegister s.cfg s.act.port s.act.reg b
        act := (dacEmit b rest s).act
        slots := (dacEmit b rest s).slots } := by
  unfold dacEmit
  simp only []
  split <;> rfl

/-! ### Agents and DAC tick keep the memory's form -/

/-- An update of a slot the pool has sets that slot and nothing else. -/
theorem State.modifySlot_eq_set {s : State} {k : Nat} {x : Slot} (f : Slot → Slot) (hx : s.slots[k]? = some x) :
    s.modifySlot k f = { s with slots := s.slots.set k (f x) } := by
  simp [State.modifySlot, List.modify_eq_set_getElem?, hx]

/-- A LOADER step on a slot it must own happens just when the pool has the slot and it is free
(44_cmd_dac_stream.md R241). -/
theorem onFreeSlot_eq_next {k : Nat} {f : Slot → Slot} {s t : State} :
    onFreeSlot k f s = .next t ↔
      ∃ x, s.slots[k]? = some x ∧ x.free = true ∧ t = { s with slots := s.slots.set k (f x) } := by
  unfold onFreeSlot
  cases hx : s.slots[k]? with
  | none => simp
  | some x =>
    simp only [State.modifySlot_eq_set f hx, Option.some.injEq, exists_eq_left']
    cases hf : x.free
    · simp
    · simpa using eq_comm

theorem Memory.wf_onFreeSlot {s t : State} {k : Nat} {f : Slot → Slot} (h : onFreeSlot k f s = .next t)
    (hw : Memory.wf s = true)
    (hf : ∀ x : Slot, x.queue.length ≤ s.cfg.slotCap → (f x).queue.length ≤ s.cfg.slotCap) :
    Memory.wf t = true := by
  unfold onFreeSlot at h
  split at h
  · cases h
  · split at h
    · cases h
      exact Memory.wf_modifySlot k hw fun x _ => hf x
    · cases h

/-- Every step of LOADER and HOST keeps the memory's form (20_memory.md R72, R75). -/
theorem Memory.wf_applyAction {a : AgentAction} {s t : State} (h : applyAction a s = .next t)
    (hw : Memory.wf s = true) : Memory.wf t = true := by
  cases a with
  | pushCmd b => cases h; exact Memory.wf_pushCmd b hw
  | pushPcm b => cases h; exact Memory.wf_pushPcm b hw
  | pushSlot k b =>
    simp only [applyAction] at h
    split at h
    · cases h
    · cases h
      exact Memory.wf_modifySlot k hw fun x _ hx => Queue.push_length b hx
  | flushCmd =>
    simp only [applyAction] at h
    split at h
    · cases h
    · cases h; exact Memory.wf_flushCmd hw
  | flushPcm =>
    simp only [applyAction] at h
    split at h
    · cases h
    · cases h; exact Memory.wf_flushPcm hw
  | flushSlot k => exact Memory.wf_onFreeSlot h hw fun _ _ => Nat.zero_le _
  | writeSlot k f => exact Memory.wf_onFreeSlot h hw fun _ hx => hx
  | publishSlot k => exact Memory.wf_onFreeSlot h hw fun _ hx => hx
  | reinitPool =>
    simp only [applyAction] at h
    split at h
    · cases h
    · cases h
      rw [Memory.wf_iff] at hw ⊢
      refine ⟨hw.1, hw.2.1, fun x hx => ?_⟩
      obtain ⟨y, hy, rfl⟩ := List.mem_map.1 hx
      exact hw.2.2 y hy
  | setReq r => cases h; exact hw
  | withdrawReq r => cases h; exact hw
  | setFmMask m => cases h; exact hw
  | setPsgMask m => cases h; exact hw
  | setForceMono b => cases h; exact hw
  | setTrimEn b => cases h; exact hw
  | setFreqFix b => cases h; exact hw
  | clearResetAck => cases h; exact hw
  | clearActivity v f => cases h; exact hw
  | zeroDacAcc => cases h; exact hw
  | zeroDacCnt => cases h; exact hw

/-- Freeing a slot keeps the memory's form. -/
theorem Memory.wf_freeSlot {s : State} (k : Nat) (h : Memory.wf s = true) : Memory.wf (s.freeSlot k) = true :=
  Memory.wf_modifySlot k h fun _ _ hx => hx

/-- The DAC tick's pop keeps the memory's form (44_cmd_dac_stream.md R252). -/
theorem Memory.wf_dacEmit {s : State} {b : Byte} {rest : List Byte} (hq : (s.slotAt s.act.slot).queue = b :: rest)
    (hw : Memory.wf s = true) : Memory.wf (dacEmit b rest s) = true := by
  have hl : rest.length ≤ s.cfg.slotCap := by
    by_cases hs : s.act.slot < s.slots.length
    · have := ((Memory.wf_iff s).1 hw).2.2 s.slots[s.act.slot] (List.getElem_mem hs)
      have e : s.slotAt s.act.slot = s.slots[s.act.slot] := by simp [State.slotAt, hs]
      rw [← e, hq] at this
      simp only [List.length_cons] at this
      omega
    · have e : s.slotAt s.act.slot = Slot.powerOn := by simp [State.slotAt, Nat.not_lt.1 hs]
      rw [e] at hq
      cases hq
  have h1 : Memory.wf (s.modifySlot s.act.slot fun x => { x with queue := rest }) = true :=
    Memory.wf_modifySlot _ hw fun _ _ _ => hl
  have h2 : Memory.wf
      ((s.modifySlot s.act.slot fun x => { x with queue := rest }).modifySlot s.act.slot
        fun x => { x with playedCount := x.playedCount + 1 }) = true :=
    Memory.wf_modifySlot _ h1 fun _ _ hx => hx
  unfold dacEmit
  simp only []
  split
  · exact Memory.wf_freeSlot _ h2
  · exact h2

/-- The DAC tick keeps the memory's form. -/
theorem Memory.wf_dacTick {s : State} (hw : Memory.wf s = true) : Memory.wf (dacTick s) = true := by
  rcases dacTick_cases s with h | h | ⟨b, rest, h⟩ | ⟨b, rest, h⟩
  · rwa [h.2]
  · rw [h.2.2]
    exact hw
  · rwa [h.2.2.2]
  · rw [h.2.2.2]
    exact Memory.wf_dacEmit h.2.1 hw

/-- The DAC tick writes the serializer, `ACT`, the pool and LOG, nothing else (44_cmd_dac_stream.md R252). -/
theorem dacTick_frame (s : State) :
    dacTick s =
      { s with
        ser := (dacTick s).ser
        act := (dacTick s).act
        slots := (dacTick s).slots
        log := (dacTick s).log } := by
  rcases dacTick_cases s with h | h | ⟨b, rest, h⟩ | ⟨b, rest, h⟩
  · rw [h.2]
  · rw [h.2.2]
    rfl
  · rw [h.2.2.2]
  · rw [h.2.2.2, dacEmit_frame]

/-! ### Clock -/

/-- Everything the clock's addition can answer (46_scheduler.md R282, R291). -/
theorem addCycles_of_fits {cyc : U64} {delta : U32} (h : cyc.toNat + delta.toNat < 2 ^ 64) :
    (addCycles cyc delta).toNat = cyc.toNat + delta.toNat := by
  simp only [addCycles, h, if_true, BitVec.toNat_add, BitVec.toNat_setWidth]
  have := delta.isLt
  omega

/-- A clock advance changes LASTHW, CYC and SAMPLE, nothing else (46_scheduler.md R282). -/
theorem clockAdvance_frame (s : State) :
    clockAdvance s =
      { s with
        clk :=
          { s.clk with
            lastHw := s.hwcc
            cyc := addCycles s.clk.cyc (s.hwcc - s.clk.lastHw)
            sample := sampleOf s.cfg (addCycles s.clk.cyc (s.hwcc - s.clk.lastHw)) } } := rfl

/-! ### Decoder and tick -/

/-- What a successful decode says about the byte sequence (46_scheduler.md R287). -/
theorem decode_ok {bs : List Byte} {i : Instr} {n : Nat} (h : decode bs = .ok (i, n)) :
    ∃ op, bs.head? = some op ∧ n = cmdLen op ∧ n ≠ 0 ∧ n ≤ bs.length ∧ decodeCommand (bs.take n) = some i := by
  cases bs with
  | nil => simp [decode] at h
  | cons op rest =>
    refine ⟨op, rfl, ?_⟩
    unfold decode at h
    by_cases h0 : cmdLen op = 0
    · simp [h0] at h
    · by_cases h1 : (op :: rest).length < cmdLen op
      · simp only [h0, h1, if_true, if_false] at h
        cases h
      · simp only [h0, h1, if_false] at h
        cases hc : decodeCommand ((op :: rest).take (cmdLen op)) with
        | none => rw [hc] at h; simp at h
        | some j =>
          rw [hc] at h
          simp only [Except.ok.injEq, Prod.mk.injEq] at h
          obtain ⟨rfl, rfl⟩ := h
          exact ⟨rfl, h0, by omega, hc⟩

/-- Everything the command step can do (46_scheduler.md R287). -/
theorem commandStep_cases (s : State) :
    (∃ i n, decode s.cmdq = .ok (i, n) ∧ commandStep s = exec i (fetched n s)) ∨
    ((decode s.cmdq = .error .empty ∨ ∃ op, decode s.cmdq = .error (.truncated op)) ∧
      commandStep s = .next (s.raiseError .cmdUnderrun)) ∨
    (∃ op, decode s.cmdq = .error (.unknownOpcode op) ∧
      commandStep s = .next (s.raiseError (.unknownOpcode op))) := by
  unfold commandStep
  cases h : decode s.cmdq with
  | ok r => exact .inl ⟨r.1, r.2, rfl, rfl⟩
  | error e =>
    cases e with
    | empty => exact .inr (.inl ⟨.inl rfl, rfl⟩)
    | truncated op => exact .inr (.inl ⟨.inr ⟨op, rfl⟩, rfl⟩)
    | unknownOpcode op => exact .inr (.inr ⟨op, rfl, rfl⟩)

/-- Everything a tick can do (46_scheduler.md R283): a request, a Running tick, an Idle tick. -/
theorem tick_cases (s : State) :
    (∃ i, decodeReq s.req.word = some i ∧ tick s = exec i (clearFault s)) ∨
    (decodeReq s.req.word = none ∧ s.status.running = true ∧ tick s = runningTick (clearFault s)) ∨
    (decodeReq s.req.word = none ∧ s.status.running = false ∧ tick s = .next (clearFault s)) := by
  unfold tick
  cases h : decodeReq s.req.word with
  | some i => exact .inl ⟨i, rfl, by simp [clearFault, h]⟩
  | none =>
    cases hr : s.status.running
    · exact .inr (.inr ⟨rfl, rfl, by simp [clearFault, h, hr, idleTick]⟩)
    · exact .inr (.inl ⟨rfl, rfl, by simp [clearFault, h, hr]⟩)

end Sys2Proof.Machine
end

