-- ==== Sys2Proof/Laws/PerInstr.lean ====
section
/-! SUPPORT. Facts about every instruction as syntax, one lemma per constructor. -/

namespace Sys2Proof.Laws

/-- The length table agrees with the encoder (30_encoding.md R103, R112): a well-formed command's bytes are as many
as `LEN` says of its head byte; a request has no bytes and one bit of REQ (R111). -/
def EncodedLength.Statement (i : Instr) : Prop :=
  i.wellFormed = true →
    if i.isCommand = true then
      ∃ op rest, encode i = op :: rest ∧ cmdLen op = (encode i).length ∧ encodeReq i = 0
    else encode i = [] ∧ encodeReq i ≠ 0

/-- The head byte of `WAITS n` (30_encoding.md R101). -/
theorem cmdLen_waits (n : Nat) (h1 : 1 ≤ n) (h2 : n ≤ 16) : cmdLen (0x70 + BitVec.ofNat 8 (n - 1)) = 1 := by
  have h : ∀ k : Fin 16, cmdLen (0x70 + BitVec.ofNat 8 k.val) = 1 := by decide
  exact h ⟨n - 1, by omega⟩

/-- The head byte of `DACW n` (30_encoding.md R101). -/
theorem cmdLen_dacw : ∀ n : BitVec 4, cmdLen (0x80 + n.setWidth 8) = 1 := by decide

theorem EncodedLength.ggst (v : Byte) : EncodedLength.Statement (.ggst v) := by
  exact fun _ => ⟨_, _, rfl, rfl, rfl⟩

theorem EncodedLength.psgw (v : Byte) : EncodedLength.Statement (.psgw v) := by
  exact fun _ => ⟨_, _, rfl, rfl, rfl⟩

theorem EncodedLength.fmw0 (reg val : Byte) : EncodedLength.Statement (.fmw0 reg val) := by
  exact fun _ => ⟨_, _, rfl, rfl, rfl⟩

theorem EncodedLength.fmw1 (reg val : Byte) : EncodedLength.Statement (.fmw1 reg val) := by
  exact fun _ => ⟨_, _, rfl, rfl, rfl⟩

theorem EncodedLength.wait (n : BitVec 16) : EncodedLength.Statement (.wait n) := by
  exact fun _ => ⟨_, _, rfl, rfl, rfl⟩

theorem EncodedLength.wait60 : EncodedLength.Statement .wait60 := by
  exact fun _ => ⟨_, _, rfl, rfl, rfl⟩

theorem EncodedLength.wait50 : EncodedLength.Statement .wait50 := by
  exact fun _ => ⟨_, _, rfl, rfl, rfl⟩

theorem EncodedLength.endStream : EncodedLength.Statement .endStream := by
  exact fun _ => ⟨_, _, rfl, rfl, rfl⟩

theorem EncodedLength.waits (n : Nat) : EncodedLength.Statement (.waits n) := by
  intro h
  simp only [Instr.wellFormed, Bool.and_eq_true, decide_eq_true_eq] at h
  exact ⟨_, _, rfl, cmdLen_waits n h.1 h.2, rfl⟩

theorem EncodedLength.dacw (n : BitVec 4) : EncodedLength.Statement (.dacw n) := by
  exact fun _ => ⟨_, _, rfl, cmdLen_dacw n, rfl⟩

theorem EncodedLength.strctl (s t p c : Byte) : EncodedLength.Statement (.strctl s t p c) := by
  exact fun _ => ⟨_, _, rfl, rfl, rfl⟩

theorem EncodedLength.strdata (s d l b : Byte) : EncodedLength.Statement (.strdata s d l b) := by
  exact fun _ => ⟨_, _, rfl, rfl, rfl⟩

theorem EncodedLength.strfreq (s : Byte) (f : U32) : EncodedLength.Statement (.strfreq s f) := by
  exact fun _ => ⟨_, _, rfl, rfl, rfl⟩

theorem EncodedLength.strstart (s : Byte) (a : U32) (m : Byte) (l : U32) : EncodedLength.Statement (.strstart s a m l) := by
  exact fun _ => ⟨_, _, rfl, rfl, rfl⟩

theorem EncodedLength.strstop (s : Byte) : EncodedLength.Statement (.strstop s) := by
  exact fun _ => ⟨_, _, rfl, rfl, rfl⟩

theorem EncodedLength.strfast (s : Byte) (b : BitVec 16) (f : Byte) : EncodedLength.Statement (.strfast s b f) := by
  exact fun _ => ⟨_, _, rfl, rfl, rfl⟩

theorem EncodedLength.pwm (a d : Byte) : EncodedLength.Statement (.pwm a d) := by
  exact fun _ => ⟨_, _, rfl, rfl, rfl⟩

theorem EncodedLength.start : EncodedLength.Statement .start := by
  exact fun _ => ⟨rfl, by decide⟩

theorem EncodedLength.updmute : EncodedLength.Statement .updmute := by
  exact fun _ => ⟨rfl, by decide⟩

theorem EncodedLength.reset : EncodedLength.Statement .reset := by
  exact fun _ => ⟨rfl, by decide⟩

theorem EncodedLength.stop : EncodedLength.Statement .stop := by
  exact fun _ => ⟨rfl, by decide⟩

theorem EncodedLength.resume : EncodedLength.Statement .resume := by
  exact fun _ => ⟨rfl, by decide⟩

end Sys2Proof.Laws
end

