-- ==== Sys2Proof/Tests/Slice0.lean ====
section
/-! SUPPORT. Tests of the model, with expected values from the spec's vectors (95_test_vectors.md) and encoding
tables, and one witness for every statement that has hypotheses. -/

namespace Sys2Proof.Tests

open Sys2Proof Sys2Proof.Machine Host

/-- The booted state after the first wait, with an empty bus record: the start of the vectors of T40 to T54. -/
def ready : State :=
  { State.reset with
    ser := { latch := { ctrl := 0x27, data := 0xFF }, bus := [] }
    clk := { State.reset.clk with fwSeen := true } }

/-- `ready` with trim mitigation armed. -/
def armed : State :=
  { ready with clk := { ready.clk with fwSeen := false }, ctl := { ready.ctl with trimEn := true } }

/-- `ready` before the first wait, mitigation off. -/
def fresh : State := { ready with clk := { ready.clk with fwSeen := false } }

/-- `ready`, Running, with the given bytes in CMDQ. -/
def playing (q : List Byte) : State :=
  { ready with cmdq := q, status := { ready.status with running := true } }

/-- `ready` with the request word `w`. -/
def asked (w : BitVec 5) : State := { ready with req := Req.ofWord w }

/-- The caches and controls of vector T33. -/
def mixed : State :=
  { ready with
    mix :=
      { fmPan := #v[0xC0, 0x80, 0x40, 0x00, 0xC7, 0x80], fmAlg := #v[0, 0, 0, 0, 0, 0],
        psgAtt := #v[0x90, 0xB5, 0xDA, 0xFF] }
    ctl := { fmMask := 0x7D, psgMask := 0xB, forceMono := true, trimEn := false, freqFix := false } }

/-- A slot of vector T63. -/
def slotOf (n : U32) (free : Bool) : Slot :=
  { sequence := n, free := free, queue := [1, 2, 3, 4], sampleRateHz := 8000, chipPort := 0, chipRegister := 0x2A,
    lengthMode := .infinite, declaredLength := 0, playedCount := 0 }

/-- The stream state of vector T63 before tick 1. -/
def streaming : State :=
  { ready with
    seq := 4
    lastSeq := 3
    slots := [slotOf 3 false, slotOf 4 false, slotOf 5 false]
    act :=
      { active := true, slot := 0, rate := 8000, port := 0, reg := 0x2A, mode := .infinite, len := 0, last := 0 }
    clk := { ready.clk with cyc := 200 } }

/-- The next state of an instruction, or the state itself. -/
def run (i : Instr) (s : State) : State :=
  match exec i s with
  | .next t => t
  | .fault _ => s
  | .refused _ => s

/-- The next state of a tick, or the state itself. -/
def ticked (s : State) : State :=
  match tick s with
  | .next t => t
  | .fault _ => s
  | .refused _ => s

/-- What the chips see of an instruction run on a state whose bus record is empty. -/
def sees (i : Instr) (s : State) : List ChipEvent := chipEvents s.cfg.rev (run i s).ser.bus

/-! ### Well-formedness: the one check, refused below and above its range -/

theorem test_wellFormed_waits_zero : (Instr.waits 0).wellFormed = false := by decide
theorem test_wellFormed_waits_seventeen : (Instr.waits 17).wellFormed = false := by decide
theorem test_wellFormed_waits_bounds : (Instr.waits 1).wellFormed = true ∧ (Instr.waits 16).wellFormed = true := by
  decide

/-! ### Decoding: words written out from 30_encoding.md R102, R104, R106, R111 and vectors T9, T21, T22 -/

theorem test_decode_ggst : decode [0x4F, 0xFF] = .ok (.ggst 0xFF, 2) := by decide
theorem test_decode_psgw : decode [0x50, 0x9F] = .ok (.psgw 0x9F, 2) := by decide
theorem test_decode_fmw0 : decode [0x52, 0xB4, 0xC0] = .ok (.fmw0 0xB4 0xC0, 3) := by decide
theorem test_decode_fmw1 : decode [0x53, 0xB5, 0x9B] = .ok (.fmw1 0xB5 0x9B, 3) := by decide
theorem test_decode_wait : decode [0x61, 0x00, 0x01] = .ok (.wait 256, 3) := by decide
theorem test_decode_wait60 : decode [0x62] = .ok (.wait60, 1) := by decide
theorem test_decode_wait50 : decode [0x63] = .ok (.wait50, 1) := by decide
theorem test_decode_end : decode [0x66, 0x50, 0x9F] = .ok (.endStream, 1) := by decide
theorem test_decode_waits : decode [0x72] = .ok (.waits 3, 1) := by decide
theorem test_decode_dacw : decode [0x8F] = .ok (.dacw 15, 1) := by decide
theorem test_decode_strctl : decode [0x90, 0x00, 0x02, 0x01, 0x2A] = .ok (.strctl 0 2 1 0x2A, 5) := by decide
theorem test_decode_strdata : decode [0x91, 0x00, 0x03, 0x01, 0x04] = .ok (.strdata 0 3 1 4, 5) := by decide
theorem test_decode_strfreq : decode [0x92, 0x00, 0x40, 0x1F, 0x00, 0x00] = .ok (.strfreq 0 8000, 6) := by decide
theorem test_decode_strstart :
    decode [0x93, 0x05, 0x01, 0x02, 0x03, 0x04, 0x07, 0x10, 0x20, 0x30, 0x40] =
      .ok (.strstart 5 0x04030201 7 0x40302010, 11) := by decide
theorem test_decode_strstop : decode [0x94, 0xFF] = .ok (.strstop 0xFF, 2) := by decide
theorem test_decode_strfast : decode [0x95, 0x01, 0x02, 0x03, 0x04] = .ok (.strfast 1 0x0302 4, 5) := by decide
theorem test_decode_pwm : decode [0xB2, 0x01, 0xFF] = .ok (.pwm 0x01 0xFF, 3) := by decide
theorem test_decode_start : decodeReq 0x01 = some .start := by decide
theorem test_decode_updmute : decodeReq 0x02 = some .updmute := by decide
theorem test_decode_reset : decodeReq 0x04 = some .reset := by decide
theorem test_decode_stop : decodeReq 0x08 = some .stop := by decide
theorem test_decode_resume : decodeReq 0x10 = some .resume := by decide
/-- T23: bits 1, 3 and 4 together are serviced as Update-muting first. -/
theorem test_decode_req_priority : decodeReq 0x1A = some .updmute := by decide
theorem test_decode_empty : decode [] = .error .empty := by decide
theorem test_decode_unknown : decode [0x51] = .error (.unknownOpcode 0x51) := by decide
theorem test_decode_truncated : decode [0x93, 0, 0, 0, 0, 0, 0, 0, 0, 0] = .error (.truncated 0x93) := by decide
theorem test_table_word_command : decodeTableWord 24 0x001061 = some (.wait 16) := by decide
theorem test_table_word_request : decodeTableWord 8 0x08 = some .stop := by decide
theorem test_fetch_word_command :
    chipEvents RevMap.default ((ticked (ready.withFetchWord 16 0x9A50)).ser.bus) = [.psgByte 0x9A] := by decide
theorem test_fetch_word_request : (ticked (ready.withFetchWord 8 0x01)).status.running = true := by decide

/-! ### The serializer: vectors T24 to T28 -/

theorem test_bitrev8 : bitrev8 0x9F = 0xF9 ∧ bitrev8 0xBF = 0xFD ∧ bitrev8 0x01 = 0x80 := by decide
/-- T25. -/
theorem test_psg_frames :
    (ready.writePsgByte 0x9F).ser.bus = [⟨0x22, 0xF9⟩, ⟨0x26, 0xF9⟩, ⟨0x27, 0xF9⟩] := by decide
/-- T26. -/
theorem test_fm_frames :
    (ready.writeFmRegister 0 0xB4 0xC0).ser =
      { latch := ⟨0x2F, 0xC0⟩
        bus := [⟨0x07, 0xB4⟩, ⟨0x03, 0xB4⟩, ⟨0x07, 0xB4⟩, ⟨0x0F, 0xC0⟩, ⟨0x0B, 0xC0⟩, ⟨0x0F, 0xC0⟩, ⟨0x2F, 0xC0⟩] } := by
  decide
/-- R80, R135: the control byte first, bit 7 first. -/
theorem test_serial_bits :
    serialBits RevMap.default ⟨0x27, 0x01⟩ =
      [false, false, true, false, false, true, true, true, false, false, false, false, false, false, false, true] := by
  decide

/-! ### Chip writes: vectors T40 to T54 -/

/-- T40 V2: channel 1 muted, the cache keeps the true byte. -/
theorem test_psgw_muted :
    sees (.psgw 0xB4) { ready with ctl := { ready.ctl with psgMask := 0xD } } = [.psgByte 0xBF] ∧
      (run (.psgw 0xB4) { ready with ctl := { ready.ctl with psgMask := 0xD } }).psgAttAt 1 = 0xB4 := by decide
/-- T43 V8: the frequency fix. -/
theorem test_psgw_frequency_fix :
    sees (.psgw 0x00)
      { ready with
        ctl := { ready.ctl with freqFix := true }
        trk := { ready.trk with psgLow := 0x80, psgLowV := true } } = [.psgByte 0x81, .psgByte 0x00] := by decide
/-- T52 F9: algorithm 4, operator 2 is a carrier. -/
theorem test_fmw0_key_on :
    ((run (.fmw0 0x28 0x21) (run (.fmw0 0xB1 0x04) ready)).activityAt 1).word = 3 := by decide
/-- T51 step 2: enabling a muted DAC closes the pan of FM index 5. -/
theorem test_fmw0_dac_enable :
    sees (.fmw0 0x2B 0x80) { ready with ctl := { ready.ctl with fmMask := 0x3F } } =
      [.fmAddr false 0x2B, .fmData false 0x80, .fmAddr true 0xB6, .fmData true 0x00] := by decide
/-- T50 F3: FM index 4 muted. -/
theorem test_fmw1_pan_muted :
    sees (.fmw1 0xB5 0x9B) { ready with ctl := { ready.ctl with fmMask := 0x6F } } =
      [.fmAddr true 0xB5, .fmData true 0x1B] := by decide
/-- T54. -/
theorem test_fmw1_parameter : ((run (.fmw1 0xAE 0x12) ready).activityAt 5).word = 2 := by decide

/-! ### MIX: vectors T30, T33 -/

/-- T33. -/
theorem test_updmute_events :
    sees .updmute mixed =
      [.fmAddr false 0xB4, .fmData false 0xC0, .fmAddr false 0xB5, .fmData false 0x00, .fmAddr false 0xB6,
        .fmData false 0xC0, .fmAddr true 0xB4, .fmData true 0x00, .fmAddr true 0xB5, .fmData true 0xC7,
        .fmAddr true 0xB6, .fmData true 0xC0, .psgByte 0x90, .psgByte 0xB5, .psgByte 0xDF, .psgByte 0xFF] := by
  decide
/-- T33, T29: 54 frames, request cleared. -/
theorem test_updmute_frames :
    (run .updmute (asked 0x02)).ser.bus.length = 54 ∧ (run .updmute (asked 0x1A)).req.word = 0x18 := by decide

/-! ### Waits: vectors T60, T61, T36 -/

theorem test_wait_wraps : (run (.wait 32) { ready with clk := { ready.clk with nextDue := 0xFFFFFFF0 } }).clk.nextDue =
    0x10 := by decide
theorem test_wait_zero_is_not_first : (run (.wait 0) fresh).clk.fwSeen = false := by decide
theorem test_wait60 : (run .wait60 { ready with clk := { ready.clk with nextDue := 100 } }).clk.nextDue = 835 := by
  decide
theorem test_wait50_first :
    (run .wait50 fresh).clk.nextDue = 882 ∧ (run .wait50 fresh).clk.fwSeen = true ∧
      (run .wait50 fresh).ser.bus.length = 54 := by decide
theorem test_waits : (run (.waits 16) { ready with clk := { ready.clk with nextDue := 40 } }).clk.nextDue = 56 := by
  decide
/-- T61. -/
theorem test_dacw :
    sees (.dacw 3) { ready with pcmq := [0x7C, 0x90] } = [.fmAddr false 0x2A, .fmData false 0x7C] ∧
      (run (.dacw 3) { ready with pcmq := [0x7C, 0x90] }).pcmq = [0x90] := by decide
theorem test_dacw_underrun :
    (run (.dacw 1) ready).log = [⟨2, 0⟩] ∧ (run (.dacw 1) ready).clk.nextDue = 1 ∧
      (run (.dacw 1) ready).status.pcmUnderrun = true := by decide

/-! ### Streams: vectors T63 to T66 -/

theorem test_strctl : run (.strctl 0 2 0 0x2A) ready = ready := by decide
theorem test_strdata : run (.strdata 0 0 1 0) ready = ready := by decide
theorem test_strfreq : (run (.strfreq 0 4000) streaming).act.rate = 4000 := by decide
theorem test_strfreq_no_stream : (run (.strfreq 0 8000) ready).log = [⟨0x12, 0⟩] := by decide
/-- T63 tick 1. -/
theorem test_strfast :
    (run (.strfast 0 0 0) streaming).act.slot = 2 ∧ (run (.strfast 0 0 0) streaming).lastSeq = 5 ∧
      (run (.strfast 0 0 0) streaming).slots.map (fun x => x.free) = [true, true, false] := by decide
/-- T63 tick 0. -/
theorem test_strstart_desync :
    (run (.strstart 0 0 0 0) { streaming with seq := 3, slots := [slotOf 3 false, slotOf 4 true, slotOf 5 false] }).log =
      [⟨4, 4⟩] := by decide
theorem test_strstop :
    (run (.strstop 0) { streaming with act := { streaming.act with slot := 2 } }).slots.map (fun x => x.free) =
      [false, false, true] := by decide
/-- T65. -/
theorem test_period :
    period Cfg.default 8000 = 30000 ∧ period Cfg.default 44100 = 5442 ∧ period Cfg.default 7 = 34285714 ∧
      period Cfg.default 300000000 = 1 := by decide
/-- T66: the first of the ticks that catch up. -/
theorem test_dac_tick :
    (dacTick { streaming with clk := { streaming.clk with cyc := 100000 } }).act.last = 30000 := by decide

/-! ### Control commands, requests and the tick: vectors of R271 to R274, T70, T72, T73, T80, T82 -/

theorem test_end :
    (run .endStream (playing [])).ser.bus.length = 14 ∧ (run .endStream (playing [])).status.finished = true ∧
      (run .endStream (playing [])).mode = .idle := by decide
theorem test_ggst : (run (.ggst 0xFF) ready).log = [⟨0x11, 0x4F⟩] := by decide
theorem test_pwm : (run (.pwm 0x01 0xFF) ready).log = [⟨0x11, 0xB2⟩] := by decide
theorem test_start :
    (run .start (asked 0x1F)).mode = .running ∧ (run .start (asked 0x1F)).req.word = 0x1E := by decide
theorem test_reset :
    (run .reset (asked 0x04)).status.resetAck = true ∧ (run .reset (asked 0x04)).ser.bus.length = 14 := by decide
/-- T34, T80: the AMS and FMS bits of FM index 4 survive the silence. -/
theorem test_stop :
    (sees .stop mixed).drop 8 =
      [.fmAddr true 0xB5, .fmData true 0x07, .fmAddr true 0xB6, .fmData true 0x00, .psgByte 0x9F, .psgByte 0xBF,
        .psgByte 0xDF, .psgByte 0xFF] := by decide
theorem test_stop_position :
    (run .stop { (playing []) with clk := { ready.clk with sample := 1000 } }).clk.paused = 1000 := by decide
/-- T80: `CYC` restarts at `1000 * 5442`. -/
theorem test_resume :
    (run .resume { ready with clk := { ready.clk with paused := 1000 } }).clk.cyc = 5442000 ∧
      (run .resume { ready with clk := { ready.clk with paused := 1000 } }).clk.sample = 1000 := by decide
/-- T70 tick 2: two bytes of a three-byte command. -/
theorem test_tick_underrun :
    (ticked (playing [0x61, 0x10])).log = [⟨1, 2⟩] ∧ (ticked (playing [0x61, 0x10])).cmdq = [0x61, 0x10] := by decide
/-- R274. -/
theorem test_tick_unknown :
    (ticked (playing [0x51, 0x22, 0x00])).fault = ⟨3, 0x51⟩ ∧ (ticked (playing [0x51, 0x22, 0x00])).cmdPc = 0 := by
  decide
/-- T72 tick 2: the clock across the wrap of HWCC. -/
theorem test_clock_advance :
    (clockAdvance
      { ready with hwcc := 0x1000, clk := { ready.clk with lastHw := 0xFFFFF000, cyc := 54420 } }).clk.cyc = 62612 := by
  decide

/-! ### Witnesses: each shows a state and operands that meet the hypotheses of the statement it names -/

theorem wit_DecodeInvertsEncode :
    (Instr.waits 1).isCommand = true ∧ (Instr.waits 1).wellFormed = true ∧
      (Instr.waits 16).isCommand = true ∧ (Instr.waits 16).wellFormed = true := by decide
theorem wit_EncodeInvertsDecode : decode [0x61, 0xFF, 0xFF, 0x66] = .ok (.wait 65535, 3) := by decide
theorem wit_DecodeVerdictByHeadByte :
    cmdLen 0x96 = 0 ∧ (cmdLen 0x61 ≠ 0 ∧ ([0x61, 0] : List Byte).length < cmdLen 0x61) ∧
      (cmdLen 0x61 ≠ 0 ∧ cmdLen 0x61 ≤ ([0x61, 0, 0] : List Byte).length) := by decide
theorem wit_OpcodeCounts : opHigh 0x66 ≠ 0x7 ∧ opHigh 0x66 ≠ 0x8 := by decide
theorem wit_RequestBits : Instr.start.isCommand = false ∧ Instr.resume.isCommand = false := by decide
theorem wit_StepRunsDecodedCommand :
    (playing [0x50, 0x9F]).setupOk = true ∧ decodeReq (playing [0x50, 0x9F]).req.word = none ∧
      (playing [0x50, 0x9F]).status.running = true ∧ (clockAdvance (playing [0x50, 0x9F])).due = true ∧
      decode (playing [0x50, 0x9F]).cmdq = .ok (.psgw 0x9F, 2) := by decide
theorem wit_StepServicesRequestOrIdles :
    ((asked 0x18).setupOk = true ∧ decodeReq (asked 0x18).req.word = some .stop) ∧
      ready.setupOk = true ∧ decodeReq ready.req.word = none ∧ ready.status.running = false := by decide

/-- `playing []` one sample before its next command. -/
def notYet : State := { (playing []) with clk := { ready.clk with nextDue := 1 } }

/-- A clock one cycle short of the end of CYC. -/
def lastCycle : State := { (playing []) with hwcc := 1, clk := { ready.clk with cyc := 0xFFFFFFFFFFFFFFFE } }

theorem wit_RunningTickWithNothingDue :
    decodeReq notYet.req.word = none ∧ notYet.status.running = true ∧ NoCycOverflow notYet ∧
      BitVec.ofNat 32 ((0 : U64).toNat / notYet.cfg.cps) < notYet.clk.nextDue := by decide
theorem wit_RunningTickWithNothingDue_last_cycle :
    decodeReq lastCycle.req.word = none ∧ lastCycle.status.running = true ∧ NoCycOverflow lastCycle := by decide
theorem wit_CommandUnderrun_empty :
    decodeReq (playing []).req.word = none ∧ (playing []).status.running = true ∧
      (clockAdvance (playing [])).due = true ∧ (playing []).cmdq = [] := by decide
theorem wit_CommandUnderrun_short :
    decodeReq (playing [0x61, 0x10]).req.word = none ∧ (playing [0x61, 0x10]).status.running = true ∧
      (clockAdvance (playing [0x61, 0x10])).due = true ∧ (playing [0x61, 0x10]).cmdq = 0x61 :: [0x10] ∧
      cmdLen 0x61 ≠ 0 ∧ (playing [0x61, 0x10]).cmdq.length < cmdLen 0x61 := by decide
theorem wit_UnknownOpcode :
    decodeReq (playing [0x51]).req.word = none ∧ (playing [0x51]).status.running = true ∧
      (clockAdvance (playing [0x51])).due = true ∧ (playing [0x51]).cmdq = 0x51 :: [] ∧ cmdLen 0x51 = 0 := by decide
theorem wit_SetupFailureNeverTicks : (setup Cfg.default false).setupOk = false := by decide
/-- Both clauses of CmdPcCountsConsumedBytes: a fetch, and a tick with an incomplete command. -/
theorem wit_CmdPcCountsConsumedBytes :
    (tick (playing [0x50, 0x9F]) = .next (ticked (playing [0x50, 0x9F])) ∧
      (playing [0x50, 0x9F]).cmdq = 0x50 :: [0x9F] ∧ decode (playing [0x50, 0x9F]).cmdq = .ok (.psgw 0x9F, 2) ∧
      decodeReq (playing [0x50, 0x9F]).req.word = none ∧ (playing [0x50, 0x9F]).status.running = true ∧
      (clockAdvance (playing [0x50, 0x9F])).due = true) ∧
    tick (playing [0x50]) = .next (ticked (playing [0x50])) ∧ ∀ i n, decode (playing [0x50]).cmdq ≠ .ok (i, n) :=
  ⟨⟨rfl, by decide⟩, rfl, fun _ _ h => nomatch (show decode [0x50] = .error (.truncated 0x50) by decide).symm.trans h⟩
theorem wit_tick_running : tick (playing [0x50, 0x9F]) = .next (ticked (playing [0x50, 0x9F])) := rfl
/-- The hypotheses of CmdPcCountsConsumedBytes, TickFrameBudget, TickLogOrder, ControlsAndCachesWriters,
ActivityFlagsWrittenByTicks and TicksOnlyConsume: a tick that answers a next state, on each branch. -/
theorem wit_tick_branches :
    (decodeReq (asked 0x02).req.word = some .updmute ∧ tick (asked 0x02) = .next (ticked (asked 0x02))) ∧
      (decodeReq (asked 0x08).req.word = some .stop ∧ tick (asked 0x08) = .next (ticked (asked 0x08))) ∧
      (decodeReq (asked 0x10).req.word = some .resume ∧ tick (asked 0x10) = .next (ticked (asked 0x10))) ∧
      (decodeReq (asked 0x04).req.word = some .reset ∧ tick (asked 0x04) = .next (ticked (asked 0x04))) ∧
      (decodeReq (asked 0x01).req.word = some .start ∧ tick (asked 0x01) = .next (ticked (asked 0x01))) ∧
      (decodeReq ready.req.word = none ∧ ready.status.running = false ∧ tick ready = .next (ticked ready)) :=
  ⟨⟨by decide, rfl⟩, ⟨by decide, rfl⟩, ⟨by decide, rfl⟩, ⟨by decide, rfl⟩, ⟨by decide, rfl⟩, by decide, by decide, rfl⟩
/-- R290: a DACW that is the first nonzero wait puts 61 frames on the bus in one tick. -/
theorem wit_TickFrameBudget_reached :
    (ticked
      { streaming with
        cmdq := [0x81]
        pcmq := [0x7C]
        status := { streaming.status with running := true }
        act := { streaming.act with rate := 300000000 }
        clk := { streaming.clk with fwSeen := false, lastHw := 0, cyc := 0 } }).ser.bus.length = 61 := by decide

theorem wit_StepKeepsRegisters :
    State.reset.cfg.Wf ∧ NoCycOverflow State.reset ∧ RegInv State.reset ∧ ∃ t, step State.reset = .next t :=
  ⟨by decide, by decide, by decide, _, rfl⟩
theorem wit_StepKeepsBusLegal :
    State.reset.cfg.rev.Wf ∧ SerInv State.reset.cfg.rev State.reset.ser ∧ ∃ t, step State.reset = .next t :=
  ⟨by decide, by decide, _, rfl⟩
theorem wit_SetupForEveryConfiguration : Cfg.default.Wf := by decide

/-- The hypothesis of every statement about what an instruction sends. -/
theorem wit_BusReady : BusReady ready := by decide
theorem wit_PsgwAttenuationLatch :
    BusReady ready ∧ (psgIsLatch 0x90 = true ∧ psgIsAtt 0x90 = true) ∧ (psgIsLatch 0xFF = true ∧ psgIsAtt 0xFF = true) := by
  decide
theorem wit_PsgwFrequencyLatch :
    BusReady ready ∧ (psgIsLatch 0x80 = true ∧ psgIsAtt 0x80 = false) ∧
      (psgIsLatch 0xEF = true ∧ psgIsAtt 0xEF = false) := by decide
theorem wit_PsgwAttenuationData :
    BusReady (run (.psgw 0x9F) ready) ∧ psgIsLatch 0x7F = false ∧ (run (.psgw 0x9F) ready).trk.psgType = true := by
  decide
theorem wit_PsgwFrequencyData :
    BusReady (run (.psgw 0x80) ready) ∧ psgIsLatch 0x00 = false ∧ (run (.psgw 0x80) ready).trk.psgType = false := by
  decide
theorem wit_FmwKeyOn :
    BusReady ready ∧ ((0xF6 : Byte) &&& 7).toNat = (if (5 : Fin 6).val < 3 then (5 : Fin 6).val else (5 : Fin 6).val + 1) ∧
      ((0xF3 : Byte) &&& 7 = 3) ∧ ((0xF7 : Byte) &&& 7 = 7) := by decide
theorem wit_FmwChannelParameter :
    (BusReady ready ∧ (0x30 : Byte) ≤ 0x30 ∧ (0x30 : Byte) ≤ 0xAF ∧ ((0x30 : Byte) &&& 3).toNat ≠ 3 ∧
      (0 : Fin 6).val = 3 * false.toNat + ((0x30 : Byte) &&& 3).toNat) ∧
    ((0x30 : Byte) ≤ 0xAE ∧ (0xAE : Byte) ≤ 0xAF ∧ ((0xAE : Byte) &&& 3).toNat ≠ 3 ∧
      (5 : Fin 6).val = 3 * true.toNat + ((0xAE : Byte) &&& 3).toNat) := by decide
/-- The operands that FmwOther is about: no special address, no channel parameter. -/
def otherForm (port1 : Bool) (r : Byte) : Prop :=
  ¬(0xB4 ≤ r ∧ r ≤ 0xB6) ∧ ¬(0xB0 ≤ r ∧ r ≤ 0xB2) ∧ ¬(port1 = false ∧ (r = 0x28 ∨ r = 0x2A ∨ r = 0x2B)) ∧
    ¬(0x30 ≤ r ∧ r ≤ 0xAF ∧ r &&& 3 ≠ 3)

theorem wit_FmwOther :
    BusReady ready ∧ otherForm false 0xB3 ∧ otherForm false 0xB7 ∧ otherForm false 0xAF ∧ otherForm false 0x2F ∧
      otherForm true 0x28 := by
  unfold otherForm
  exact ⟨by decide, by decide, by decide, by decide, by decide, by decide⟩
/-- Two ready machines that differ in what the last write left in the latch. -/
theorem wit_MutingPassIsAFunction :
    BusReady ready ∧ BusReady (ready.writeFmRegister 1 0x22 0x08) ∧
      ready.cfg.rev = (ready.writeFmRegister 1 0x22 0x08).cfg.rev ∧
      ready.mix = (ready.writeFmRegister 1 0x22 0x08).mix ∧ ready.ctl = (ready.writeFmRegister 1 0x22 0x08).ctl ∧
      ready.trk.dacEn = (ready.writeFmRegister 1 0x22 0x08).trk.dacEn ∧
      ready.clk.fwSeen = (ready.writeFmRegister 1 0x22 0x08).clk.fwSeen ∧
      ready.ser.latch ≠ (ready.writeFmRegister 1 0x22 0x08).ser.latch := by decide
theorem wit_UnmutingRestoresCaches :
    BusReady mixed ∧ ready.ctl.fmMask = 0x7F ∧ ready.ctl.psgMask = 0xF ∧ ready.ctl.forceMono = false ∧
      (ready.ctl.trimEn = false ∨ mixed.clk.fwSeen = true) := by decide
theorem wit_UnmutingRestoresCaches_after_mitigation :
    BusReady mixed ∧ armed.ctl.fmMask = 0x7F ∧ armed.ctl.psgMask = 0xF ∧ armed.ctl.forceMono = false ∧
      armed.ctl.trimEn = true ∧ mixed.clk.fwSeen = true := by decide
theorem wit_TrimMitigationSilences :
    BusReady armed ∧ PsgLowInv armed ∧ armed.ctl.trimEn = true ∧ armed.clk.fwSeen = false ∧
      (run (.fmw0 0xB4 0xC0) armed).clk.fwSeen = false := by decide
theorem wit_LaterWaits :
    (WaitOf (.wait 0) 0 ∧ fresh.clk.fwSeen = false) ∧ (WaitOf (.wait 65535) 65535 ∧ ready.clk.fwSeen = true) ∧
      (WaitOf .wait60 735 ∧ WaitOf .wait50 882 ∧ WaitOf (.waits 1) 1 ∧ WaitOf (.waits 16) 16) :=
  ⟨⟨.inl ⟨0, rfl, by decide⟩, rfl⟩, ⟨.inl ⟨65535, rfl, by decide⟩, rfl⟩, .inr (.inl ⟨rfl, rfl⟩),
    .inr (.inr (.inl ⟨rfl, rfl⟩)), .inr (.inr (.inr ⟨1, by decide, by decide, rfl, rfl⟩)),
    .inr (.inr (.inr ⟨16, by decide, by decide, rfl, rfl⟩))⟩
theorem wit_FirstWait : WaitOf (.waits 1) 1 ∧ (1 : U32) ≠ 0 ∧ fresh.clk.fwSeen = false ∧ BusReady fresh :=
  ⟨.inr (.inr (.inr ⟨1, by decide, by decide, rfl, rfl⟩)), by decide, rfl, by decide⟩
theorem wit_DacwWritesThenWaits :
    (BusReady { fresh with pcmq := [0x7C] } ∧ ({ fresh with pcmq := [0x7C] } : State).pcmq = 0x7C :: [] ∧
      (0 : BitVec 4) = 0) ∧
    ((15 : BitVec 4) ≠ 0 ∧ ready.clk.fwSeen = true ∧ fresh.clk.fwSeen = false) ∧
    (BusReady fresh ∧ fresh.pcmq = []) ∧ (BusReady ready ∧ ready.pcmq = []) := by decide
theorem wit_StreamStop : ready.act.active = false ∧ streaming.act.active = true ∧
    streaming.slots[0]? = some (slotOf 3 false) := by decide
theorem wit_StreamStart_no_slot :
    StreamStartForm (.strstart 0 0 0 0) ∧ ∀ x ∈ ready.slots, x.free = true ∨ x.sequence ≠ ready.seq + 1 :=
  ⟨.inl ⟨0, 0, 0, 0, rfl⟩, by decide⟩
theorem wit_StreamStart_plays :
    StreamStartForm (.strfast 0 0 0) ∧ streaming.slots[2]? = some (slotOf 5 false) ∧ (slotOf 5 false).free = false ∧
      (slotOf 5 false).sequence = streaming.seq + 1 ∧
      ∀ (k : Nat) (x : Slot), k < 2 → streaming.slots[k]? = some x → x.free = true ∨ x.sequence ≠ streaming.seq + 1 := by
  refine ⟨.inr ⟨0, 0, 0, rfl⟩, rfl, rfl, rfl, fun k x hk hx => ?_⟩
  obtain rfl | rfl : k = 0 ∨ k = 1 := by omega
  · cases hx; decide
  · cases hx; decide
theorem wit_StartRetiresSkippedOnly :
    StreamStartForm (.strfast 0 0 0) ∧ streaming.slots[1]? = some (slotOf 4 false) ∧
      (run (.strfast 0 0 0) streaming).slots[1]? = some (slotOf 4 true) ∧
      streaming.lastSeq < (slotOf 4 false).sequence ∧ (slotOf 4 false).sequence < streaming.seq + 1 ∧
      (slotOf 5 false).sequence = streaming.seq + 1 ∧ streaming.act.slot ≠ 2 ∧
      (slotOf 3 false).sequence = streaming.lastSeq ∧ ready.act.active = false :=
  ⟨.inr ⟨0, 0, 0, rfl⟩, by decide⟩

/-- `streaming` at a given cycle count. -/
def streamAt (c : U64) : State := { streaming with clk := { streaming.clk with cyc := c } }

theorem wit_DacTickCases :
    ((streamAt 30000).cfg.clockHz < 2 ^ 32 ∧ BusReady (streamAt 30000) ∧ PoolInv (streamAt 30000) ∧
      StreamClockInv (streamAt 30000)) ∧
    ((streamAt 30000).act.active = true ∧
      (streamAt 30000).slots[(streamAt 30000).act.slot]? = some (slotOf 3 false) ∧
      (slotOf 3 false).queue = 1 :: [2, 3, 4] ∧ (streamAt 30000).act.rate ≠ 0 ∧
      max 1 ((streamAt 30000).cfg.clockHz / (streamAt 30000).act.rate.toNat) ≤
        (streamAt 30000).clk.cyc.toNat - (streamAt 30000).act.last.toNat) := by decide
/-- One cycle before the byte is due. -/
theorem wit_DacTickCases_not_due :
    BusReady (streamAt 29999) ∧ PoolInv (streamAt 29999) ∧ StreamClockInv (streamAt 29999) ∧
      (streamAt 29999).clk.cyc.toNat - (streamAt 29999).act.last.toNat <
        max 1 ((streamAt 29999).cfg.clockHz / (streamAt 29999).act.rate.toNat) := by decide
/-- No stream, and a stream whose queue is empty. -/
theorem wit_DacTickCases_quiet :
    (BusReady ready ∧ PoolInv ready ∧ StreamClockInv ready ∧ ready.act.active = false) ∧
      ({ (slotOf 3 false) with queue := [] } : Slot).queue = [] ∧
      ({ streaming with slots := [{ (slotOf 3 false) with queue := [] }, slotOf 4 true, slotOf 5 true] } : State).slots[0]? =
        some { (slotOf 3 false) with queue := [] } := by decide
theorem wit_ResumeService : BusReady ready ∧ ready.cfg.Wf := by decide
theorem wit_StopResumeRoundTrip :
    BusReady ready ∧ exec .stop ready = .next (run .stop ready) ∧ BusReady (run .stop ready) :=
  ⟨by decide, rfl, by decide⟩
theorem wit_ControlsAndCachesWriters :
    (∀ v, Instr.stop ≠ .psgw v) ∧ (∀ r v, Instr.stop ≠ .fmw0 r v) ∧ (∀ r v, Instr.stop ≠ .fmw1 r v) ∧
      Instr.stop ≠ .start := ⟨nofun, nofun, nofun, nofun⟩
theorem wit_TicksOnlyConsume :
    tick (playing [0x50, 0x9F]) = .next (ticked (playing [0x50, 0x9F])) ∧
      (playing [0x50, 0x9F]).slots[2]? = some Slot.powerOn := ⟨rfl, by decide⟩
/-- SAMPLE_HZ is a parameter: at 48000 Hz a sample is 5000 cycles of the default clock (00_scope.md R6). -/
theorem test_cps : Cfg.default.cps = 5442 ∧ { Cfg.default with sampleHz := 48000 }.cps = 5000 := by decide
/-- The tick of the second clause, from a state whose FAULT is not (0,0). -/
theorem wit_ResetTable :
    decodeReq { (asked 0x1F) with fault := { code := 3, info := 0x51 } }.req.word = some .start ∧
      (ticked { (asked 0x1F) with fault := { code := 3, info := 0x51 } }).fault = { code := 0, info := 0 } := by decide
/-- A running machine: bytes are appended to a slot that is not free. -/
theorem wit_AgentsWriteOnlyTheirs_busy_slot :
    (playing []).status.running = true ∧ streaming.slots[0]? = some (slotOf 3 false) ∧
      applyActions [.pushSlot 0 9, .zeroDacAcc] streaming =
        .next
          { streaming with
            trk := { streaming.trk with dacAcc := 0 }
            slots := [{ (slotOf 3 false) with queue := [1, 2, 3, 4, 9] }, slotOf 4 false, slotOf 5 false] } :=
  ⟨by decide, rfl, rfl⟩
/-- A machine that is not running: the pool is re-initialised. -/
theorem wit_AgentsWriteOnlyTheirs_reinit :
    streaming.status.running = false ∧
      applyActions [.reinitPool] streaming =
        .next { streaming with slots := [slotOf 3 true, slotOf 4 true, slotOf 5 true] } := ⟨by decide, rfl⟩
/-- The slot clauses of LoaderQueueOperations: a slot beyond the pool, one with room, a full one, one that is not free,
a free one. -/
theorem wit_LoaderQueueOperations :
    streaming.slots[3]? = none ∧ streaming.slots[2]? = some (slotOf 5 false) ∧
      (slotOf 5 false).queue.length < streaming.cfg.slotCap ∧
      ¬ (slotOf 5 false).queue.length < { Cfg.default with slotCap := 4 }.slotCap ∧ (slotOf 5 false).free = false ∧
      ready.slots[0]? = some Slot.powerOn ∧ Slot.powerOn.free = true := by decide
theorem wit_AgentsWriteOnlyTheirs :
    (playing []).status.running = true ∧
      applyActions [.pushCmd 0x66, .setReq .stop, .writeSlot 0 ⟨1, 8000, 0, 0x2A, .infinite, 0, 0⟩, .publishSlot 0]
        (playing []) =
        .next
          { (playing []) with
            cmdq := [0x66]
            req := { ready.req with stop := true }
            slots := [{ (slotOf 1 false) with queue := [] }, Slot.powerOn, Slot.powerOn] } := ⟨by decide, rfl⟩
/-- A flush while Running and a write to a slot that is not free are refused (log 4). -/
theorem test_loader_refusals :
    applyAction .flushCmd (playing []) = .refused .flushWhileRunning ∧
      applyAction (.flushSlot 0) streaming = .refused .slotNotOwned ∧
      applyAction (.publishSlot 3) streaming = .refused .noSuchSlot := ⟨rfl, rfl, rfl⟩

end Sys2Proof.Tests
end

section
/-! SUPPORT. The pan write of FMW0 and FMW1 (42_cmd_chip_writes.md R191): what the pan cache reads after a write of
one of its entries, what `fmPan` sends, and the statement about the command. -/

namespace Sys2Proof.Machine

open Host

/-! ### The pan cache as a register file -/

@[simp] theorem fmPanAt_setFmPan_same (s : State) (i : Fin 6) (v : Byte) : (s.setFmPan i v).fmPanAt i = v := by
  simp [State.fmPanAt]

theorem fmPanAt_setFmPan_other (s : State) {i j : Fin 6} (h : j ≠ i) (v : Byte) :
    (s.setFmPan i v).fmPanAt j = s.fmPanAt j := by
  have hv : i.val ≠ j.val := fun e => h (Fin.ext e.symm)
  simp [State.fmPanAt, Vector.getElem_set_ne _ _ hv]

/-! ### A chip write: the caches it leaves alone, and what the chips see -/

@[simp] theorem fmPanAt_writeFmRegister (s : State) (port reg val : Byte) (i : Fin 6) :
    (s.writeFmRegister port reg val).fmPanAt i = s.fmPanAt i := rfl

/-- `WriteFmRegister` in a ready state is seen by the chips as its one FM write (40_bus_serializer.md R147). -/
theorem writeFmRegister_sends {s : State} (h : BusReady s) (port reg val : Byte) :
    Sends s (s.writeFmRegister port reg val) (fmEvents port reg val) :=
  (Ser.writeFmRegister_emits h.1 h.2 port reg val).events

/-! ### `FmPan` -/

/-- A register of class PAN runs `FmPan` (42_cmd_chip_writes.md R190). -/
theorem fmWrite_pan {port : Bool} {reg : Byte} {i : Fin 6} (h : fmClass port reg = .pan i) (val : Byte) (s : State) :
    fmWrite port reg val s = fmPan port reg val i s := by
  simp only [fmWrite, h]

/-- The byte transmitted is the multiplexer's, computed from the cache that already holds the new value
(42_cmd_chip_writes.md R191). -/
theorem fmPan_sends {s : State} (h : BusReady s) (port : Bool) (reg val : Byte) (i : Fin 6) :
    Sends s (fmPan port reg val i s) (fmEvents (portByte port) reg ((fmPan port reg val i s).fmPanOut i false)) := by
  have hcached : BusReady (s.setFmPan i val) := h
  exact writeFmRegister_sends hcached (portByte port) reg _

/-- `FmPan` changes the serializer and the pan cache only (42_cmd_chip_writes.md R191). -/
theorem fmPan_frame (port : Bool) (reg val : Byte) (i : Fin 6) (s : State) :
    fmPan port reg val i s =
      { s with
        ser := (fmPan port reg val i s).ser
        mix := { s.mix with fmPan := (fmPan port reg val i s).mix.fmPan } } := rfl

/-- Settles O26: class PAN sends the command to `fmPan`, which writes one cache entry and then the chip, so the
cache's read rules, the bus law of the write and the frame of `fmPan` give the four parts. -/
theorem fmwPan : Obligations.FmwPan := by
  unfold Obligations.FmwPan
  intro s i val hready
  refine ⟨fmPan (decide (3 ≤ i.val)) (0xB4 + BitVec.ofNat 8 (i.val % 3)) val i s, ?_, ?_, ?_, ?_, ?_⟩
  · rw [exec_fmw, fmWrite_pan (fmClass_pan i)]
  · simp [fmPan]
  · intro j hj
    simp [fmPan, fmPanAt_setFmPan_other s hj]
  · exact fmPan_sends hready _ _ val i
  · exact fmPan_frame _ _ val i s

end Sys2Proof.Machine
end

section
/-! SUPPORT. The stream setup commands STRCTL and STRDATA (44_cmd_dac_stream.md R243, R244): how `decode` reads a
command whose length is known, what these two mean, and the statement about them. -/

namespace Sys2Proof.Machine

open Host

/-- `decode` of bytes whose head has length `n`, all of them there (46_scheduler.md R287). -/
theorem decode_eq_ok {op : Byte} {rest : List Byte} {n : Nat} {i : Instr} (hlen : cmdLen op = n) (hpos : n ≠ 0)
    (hbytes : n ≤ (op :: rest).length) (hcmd : decodeCommand ((op :: rest).take n) = some i) :
    decode (op :: rest) = .ok (i, n) := by
  have henough : ¬ (op :: rest).length < n := Nat.not_lt.2 hbytes
  simp only [decode, hlen, if_neg hpos, if_neg henough, hcmd]

/-- The five bytes of STRCTL (44_cmd_dac_stream.md R243). -/
theorem decode_strctl (sid t p c : Byte) (rest : List Byte) :
    decode (0x90 :: sid :: t :: p :: c :: rest) = .ok (.strctl sid t p c, 5) :=
  decode_eq_ok rfl (by decide) (by simp) rfl

/-- The five bytes of STRDATA (44_cmd_dac_stream.md R244). -/
theorem decode_strdata (sid d l b : Byte) (rest : List Byte) :
    decode (0x91 :: sid :: d :: l :: b :: rest) = .ok (.strdata sid d l b, 5) :=
  decode_eq_ok rfl (by decide) (by simp) rfl

theorem exec_strctl (sid t p c : Byte) (s : State) : exec (.strctl sid t p c) s = .next s := rfl

theorem exec_strdata (sid d l b : Byte) (s : State) : exec (.strdata sid d l b) s = .next s := rfl

/-- Settles O41: the two encodings and the two meanings, each by its own lemma. -/
theorem commandsWithoutChipEffect : Obligations.CommandsWithoutChipEffect :=
  ⟨decode_strctl, decode_strdata, exec_strctl, exec_strdata⟩

end Sys2Proof.Machine
end

section
/-! SUPPORT. Stream start (44_cmd_dac_stream.md R249): what each of its parts (the retire loop, the search for the new
sequence, the return of the replaced slot, the activation) does to a slot and leaves unchanged, and the statement
about STRSTART and STRFAST. -/

namespace Sys2Proof.Machine

open Host

/-! ### A slot of the pool -/

theorem State.slotAt_of_getElem? {s : State} {k : Nat} {x : Slot} (hx : s.slots[k]? = some x) : s.slotAt k = x := by
  simp [State.slotAt, List.getD_eq_getElem?_getD, hx]

/-- What a slot reads after a slot was modified. -/
theorem State.modifySlot_getElem? {s : State} {k : Nat} {x : Slot} (hx : s.slots[k]? = some x) (j : Nat)
    (f : Slot → Slot) : (s.modifySlot j f).slots[k]? = some (if k = j then f x else x) := by
  simp only [State.modifySlot_slots, List.getElem?_modify, hx, eq_comm (a := j)]
  split <;> rfl

/-! ### The retire loop -/

theorem retireSkipped_frame (s : State) : retireSkipped s = { s with slots := (retireSkipped s).slots } := rfl

@[simp] theorem retireSkipped_slots_length (s : State) : (retireSkipped s).slots.length = s.slots.length := by
  simp [retireSkipped]

/-- What the loop does to one slot: a free slot stays free, any other is freed just when it is skipped. -/
theorem retire_slot_eq (lastSeq seq : U32) (x : Slot) :
    (if slotSkipped lastSeq seq x then { x with free := true } else x) =
      { x with free := x.free || decide (lastSeq < x.sequence ∧ x.sequence < seq) } := by
  obtain ⟨sequence, free⟩ := x
  cases free with
  | true => simp [slotSkipped]
  | false => by_cases h : lastSeq < sequence ∧ sequence < seq <;> simp [slotSkipped, h]

theorem retireSkipped_getElem? {s : State} {k : Nat} {x : Slot} (hx : s.slots[k]? = some x) :
    (retireSkipped s).slots[k]? =
      some { x with free := x.free || decide (s.lastSeq < x.sequence ∧ x.sequence < s.seq) } := by
  rw [← retire_slot_eq]
  simp [retireSkipped, hx]

/-! ### The search for the new sequence -/

theorem findSlot_eq_none {s : State} (h : ∀ x ∈ s.slots, x.free = true ∨ x.sequence ≠ s.seq) :
    findSlot s = none := by
  refine List.findIdx?_eq_none_iff.2 fun x hx => ?_
  rcases h x hx with hfree | hseq
  · simp [hfree]
  · simp [hseq]

/-- The search finds the lowest slot that is not free and holds the sequence. -/
theorem findSlot_eq_some {s : State} {m : Nat} {y : Slot} (hy : s.slots[m]? = some y) (hfree : y.free = false)
    (hseq : y.sequence = s.seq)
    (hlow : ∀ (k : Nat) (x : Slot), k < m → s.slots[k]? = some x → x.free = true ∨ x.sequence ≠ s.seq) :
    findSlot s = some m := by
  obtain ⟨hm, rfl⟩ := List.getElem?_eq_some_iff.1 hy
  refine List.findIdx?_eq_some_iff_getElem.2 ⟨hm, by simp [hfree, hseq], fun k hk => ?_⟩
  rcases hlow k _ hk (List.getElem?_eq_getElem (hk.trans hm)) with hfree | hseq
  · simp [hfree]
  · simp [hseq]

/-- Retiring does not disturb the search: a slot that holds `SEQ` is not strictly below it
(44_cmd_dac_stream.md R249, R250). -/
theorem findSlot_retireSkipped (s : State) : findSlot (retireSkipped s) = findSlot s := by
  simp only [findSlot, retireSkipped, List.findIdx?_map]
  congr 1
  funext x
  simp only [Function.comp_apply, retire_slot_eq]
  by_cases hseq : x.sequence = s.seq
  · simp [hseq]
  · simp [beq_eq_false_iff_ne.2 hseq]

/-! ### The replaced stream's slot -/

theorem freeReplaced_frame (s : State) : freeReplaced s = { s with slots := (freeReplaced s).slots } := by
  unfold freeReplaced
  split <;> rfl

@[simp] theorem freeReplaced_slots_length (s : State) : (freeReplaced s).slots.length = s.slots.length := by
  unfold freeReplaced
  split <;> simp

theorem freeReplaced_getElem? {s : State} {k : Nat} {x : Slot} (hx : s.slots[k]? = some x) :
    (freeReplaced s).slots[k]? =
      some { x with free := x.free || (s.act.active && decide (k = s.act.slot)) } := by
  unfold freeReplaced
  cases hactive : s.act.active with
  | false => simpa using hx
  | true =>
    have hmod := State.modifySlot_getElem? hx s.act.slot fun y => { y with free := true }
    refine hmod.trans ?_
    by_cases hk : k = s.act.slot <;> simp [hk]

/-! ### Activation -/

theorem activateSlot_frame (m : Nat) (s : State) :
    activateSlot m s =
      { s with
        lastSeq := s.seq
        act := (activateSlot m s).act
        slots := (activateSlot m s).slots } := rfl

@[simp] theorem activateSlot_slots_length (m : Nat) (s : State) :
    (activateSlot m s).slots.length = s.slots.length := by
  simp [activateSlot]

/-- The active stream takes the configuration of the slot. -/
theorem activateSlot_act {s : State} {m : Nat} {y : Slot} (hy : s.slots[m]? = some y) :
    (activateSlot m s).act =
      { active := true, slot := m, rate := y.sampleRateHz, port := y.chipPort, reg := y.chipRegister,
        mode := y.lengthMode, len := y.declaredLength, last := s.clk.cyc } := by
  simp only [activateSlot, State.slotAt_of_getElem? hy]

/-- Activation restarts the played count of its slot and changes no other. -/
theorem activateSlot_getElem? {s : State} {k : Nat} {x : Slot} (hx : s.slots[k]? = some x) (m : Nat) :
    (activateSlot m s).slots[k]? = some { x with playedCount := if k = m then 0 else x.playedCount } := by
  have hmod := State.modifySlot_getElem? hx m fun y => { y with playedCount := 0 }
  refine hmod.trans ?_
  split <;> rfl

/-! ### `StreamStart()` -/

/-- Both forms of stream start mean `StreamStart()` (44_cmd_dac_stream.md R246, R247). -/
theorem exec_of_streamStartForm {i : Instr} (h : StreamStartForm i) (s : State) :
    exec i s = .next (streamStart s) := by
  obtain ⟨sid, a, m, l, rfl⟩ | ⟨sid, b, f, rfl⟩ := h <;> rfl

/-- A start without a slot of the new sequence retires and logs error 4. -/
theorem streamStart_of_findSlot_none {s : State} (h : findSlot { s with seq := s.seq + 1 } = none) :
    streamStart s = (retireSkipped { s with seq := s.seq + 1 }).addLog 4 (s.seq + 1) := by
  rw [← findSlot_retireSkipped] at h
  obtain ⟨-, heq⟩ | ⟨m, hm, -⟩ := streamStart_cases s
  · exact heq
  · cases h.symm.trans hm

/-- A start with a slot of the new sequence retires, returns the replaced slot and activates the new one. -/
theorem streamStart_of_findSlot_some {s : State} {m : Nat} (h : findSlot { s with seq := s.seq + 1 } = some m) :
    streamStart s = activateSlot m (freeReplaced (retireSkipped { s with seq := s.seq + 1 })) := by
  rw [← findSlot_retireSkipped] at h
  obtain ⟨hm, -⟩ | ⟨n, hn, heq⟩ := streamStart_cases s
  · cases h.symm.trans hm
  · cases h.symm.trans hn
    exact heq

/-- A slot when it comes to the activation: retired if skipped, returned if it is the replaced stream's. -/
theorem freeReplaced_retireSkipped_getElem? {s : State} {k : Nat} {x : Slot} (hx : s.slots[k]? = some x) :
    (freeReplaced (retireSkipped s)).slots[k]? =
      some
        { x with
          free :=
            x.free || decide (s.lastSeq < x.sequence ∧ x.sequence < s.seq) ||
              (s.act.active && decide (k = s.act.slot)) } :=
  freeReplaced_getElem? (retireSkipped_getElem? hx)

/-- What a start that activates slot `m` leaves unchanged. -/
theorem activateSlot_freeReplaced_frame (m : Nat) (s : State) :
    activateSlot m (freeReplaced s) =
      { s with
        lastSeq := s.seq
        act := (activateSlot m (freeReplaced s)).act
        slots := (activateSlot m (freeReplaced s)).slots } := by
  have hframe := freeReplaced_frame s
  generalize (freeReplaced s).slots = slots at hframe
  rw [hframe]
  rfl

end Sys2Proof.Machine

/-! The model's function has the name `Sys2Proof.Machine.streamStart`, so the theorem stands in a namespace of its
own. -/

namespace Sys2Proof.Machine.Proofs

/-- Settles O44: the search decides between the two clauses, and in each the rules of the parts that ran give the
slots, the active stream and the frame. -/
theorem streamStart : Obligations.StreamStart := by
  unfold Obligations.StreamStart
  intro i s hform
  rw [exec_of_streamStartForm hform]
  constructor
  · intro hnone
    rw [streamStart_of_findSlot_none (findSlot_eq_none hnone)]
    refine ⟨_, rfl, rfl, rfl, by simp, fun k x hx => ?_, rfl⟩
    exact retireSkipped_getElem? (s := { s with seq := s.seq + 1 }) hx
  · intro m y hy hfree hseq hlow
    rw [streamStart_of_findSlot_some (findSlot_eq_some hy hfree hseq hlow)]
    have hframe := activateSlot_freeReplaced_frame m (retireSkipped { s with seq := s.seq + 1 })
    have hslot {k : Nat} {x : Slot} (hx : s.slots[k]? = some x) :=
      freeReplaced_retireSkipped_getElem? (s := { s with seq := s.seq + 1 }) hx
    have hnewSeq := congrArg State.seq hframe
    have hnewLast := congrArg State.lastSeq hframe
    refine ⟨_, rfl, hnewSeq, hnewLast, ?_, by simp, fun k x hx => activateSlot_getElem? (hslot hx) m, ?_⟩
    · rw [activateSlot_act (hslot hy), freeReplaced_frame, retireSkipped_frame]
    · rw [hnewSeq, hnewLast]
      exact hframe

end Sys2Proof.Machine.Proofs
end

section
/-! SUPPORT. The command encoding (30_encoding.md): how bytes go together to fields, the two directions of the round
trip on exactly one command's bytes, and the statements about `decode` and `decodeReq`. -/

namespace Sys2Proof.Machine

open Host

/-! ### Little-endian fields -/

theorem le16_getLsbD (a b : Byte) (k : Nat) :
    (le16 a b).getLsbD k = if k < 8 then a.getLsbD k else b.getLsbD (k - 8) :=
  BitVec.getLsbD_append

theorem le32_getLsbD (a b c d : Byte) (k : Nat) :
    (le32 a b c d).getLsbD k =
      if k < 8 then a.getLsbD k
      else if k - 8 < 8 then b.getLsbD (k - 8)
      else if k - 8 - 8 < 8 then c.getLsbD (k - 8 - 8)
      else d.getLsbD (k - 8 - 8 - 8) := by
  have h1 : (d ++ c : BitVec 16).getLsbD (k - 8 - 8) = _ := BitVec.getLsbD_append
  have h2 : ((d ++ c : BitVec 16) ++ b : BitVec 24).getLsbD (k - 8) = _ := BitVec.getLsbD_append
  have h3 : (le32 a b c d).getLsbD k = _ := BitVec.getLsbD_append
  rw [h3, h2, h1]

theorem leByte_getLsbD {w : Nat} (v : BitVec w) (n k : Nat) :
    (leByte v n).getLsbD k = (decide (k < 8) && v.getLsbD (8 * n + k)) := by
  simp [leByte, BitVec.getLsbD_extractLsb']

theorem le16_leByte (v : BitVec 16) : le16 (leByte v 0) (leByte v 1) = v := by
  refine BitVec.eq_of_getLsbD_eq fun k hk => ?_
  simp only [le16_getLsbD, leByte_getLsbD]
  split
  · simp [*]
  · simp [show k - 8 < 8 by omega, show 8 + (k - 8) = k by omega]

theorem le32_leByte (v : U32) : le32 (leByte v 0) (leByte v 1) (leByte v 2) (leByte v 3) = v := by
  refine BitVec.eq_of_getLsbD_eq fun k hk => ?_
  simp only [le32_getLsbD, leByte_getLsbD]
  split_ifs
  · simp [*]
  · simp [*, show 8 + (k - 8) = k by omega]
  · simp [*, show 16 + (k - 8 - 8) = k by omega]
  · simp [show k - 8 - 8 - 8 < 8 by omega, show 24 + (k - 8 - 8 - 8) = k by omega]

theorem leByte_le16 (a b : Byte) : leByte (le16 a b) 0 = a ∧ leByte (le16 a b) 1 = b := by
  constructor <;> refine BitVec.eq_of_getLsbD_eq fun k hk => ?_ <;>
    simp only [leByte_getLsbD, le16_getLsbD, hk, decide_true, Bool.true_and]
  · simp [hk]
  · simp

theorem leByte_le32 (a b c d : Byte) :
    leByte (le32 a b c d) 0 = a ∧ leByte (le32 a b c d) 1 = b ∧ leByte (le32 a b c d) 2 = c ∧
      leByte (le32 a b c d) 3 = d := by
  refine ⟨?_, ?_, ?_, ?_⟩ <;> refine BitVec.eq_of_getLsbD_eq fun k hk => ?_ <;>
    simp only [leByte_getLsbD, le32_getLsbD, hk, decide_true, Bool.true_and]
  · simp [hk]
  · simp [hk]
  · rw [if_neg (by omega), if_neg (by omega), if_pos (by omega), show 8 * 2 + k - 8 - 8 = k by omega]
  · rw [if_neg (by omega), if_neg (by omega), if_neg (by omega), show 8 * 3 + k - 8 - 8 - 8 = k by omega]

/-! ### The two 16-value families -/

/-- The head byte of `WAITS` is its family with the amount in the low nibble (30_encoding.md R101, R106). -/
theorem waitsByte_of_opHigh : ∀ op : Byte, opHigh op = 0x7 → 0x70 + BitVec.ofNat 8 (opLow op).toNat = op := by
  decide

/-- The head byte of `DACW` is its family with the amount in the low nibble (30_encoding.md R101, R106). -/
theorem dacwByte_of_opHigh : ∀ op : Byte, opHigh op = 0x8 → 0x80 + (opLow op).setWidth 8 = op := by
  decide

/-! ### The round trip on the bytes of one command -/

/-- The length law of every instruction, put together from its cases. -/
theorem encodedLength (i : Instr) : Laws.EncodedLength.Statement i := by
  cases i with
  | ggst v => exact Laws.EncodedLength.ggst v
  | psgw v => exact Laws.EncodedLength.psgw v
  | fmw0 reg val => exact Laws.EncodedLength.fmw0 reg val
  | fmw1 reg val => exact Laws.EncodedLength.fmw1 reg val
  | wait n => exact Laws.EncodedLength.wait n
  | wait60 => exact Laws.EncodedLength.wait60
  | wait50 => exact Laws.EncodedLength.wait50
  | endStream => exact Laws.EncodedLength.endStream
  | waits n => exact Laws.EncodedLength.waits n
  | dacw n => exact Laws.EncodedLength.dacw n
  | strctl s t p c => exact Laws.EncodedLength.strctl s t p c
  | strdata s d l b => exact Laws.EncodedLength.strdata s d l b
  | strfreq s f => exact Laws.EncodedLength.strfreq s f
  | strstart s a m l => exact Laws.EncodedLength.strstart s a m l
  | strstop s => exact Laws.EncodedLength.strstop s
  | strfast s b f => exact Laws.EncodedLength.strfast s b f
  | pwm a d => exact Laws.EncodedLength.pwm a d
  | start => exact Laws.EncodedLength.start
  | updmute => exact Laws.EncodedLength.updmute
  | reset => exact Laws.EncodedLength.reset
  | stop => exact Laws.EncodedLength.stop
  | resume => exact Laws.EncodedLength.resume

theorem decodeCommand_waits {n : Nat} (h1 : 1 ≤ n) (h2 : n ≤ 16) :
    decodeCommand (encode (.waits n)) = some (.waits n) := by
  have h : ∀ k : Fin 16, decodeCommand [0x70 + BitVec.ofNat 8 k.val] = some (.waits (k.val + 1)) := by decide
  have hn := h ⟨n - 1, by omega⟩
  rwa [Nat.sub_add_cancel h1] at hn

/-- The encoder's bytes decode to the command (30_encoding.md R112). -/
theorem decodeCommand_encode {i : Instr} (hc : i.isCommand = true) (hw : i.wellFormed = true) :
    decodeCommand (encode i) = some i := by
  cases i with
  | waits n =>
    simp only [Instr.wellFormed, Bool.and_eq_true, decide_eq_true_eq] at hw
    exact decodeCommand_waits hw.1 hw.2
  | dacw n => revert n; decide
  | wait n => simp [encode, decodeCommand, le16_leByte]
  | strfreq s f => simp [encode, decodeCommand, le32_leByte]
  | strstart s a m l => simp [encode, decodeCommand, le32_leByte]
  | strfast s b f => simp [encode, decodeCommand, le16_leByte]
  | start => cases hc
  | updmute => cases hc
  | reset => cases hc
  | stop => cases hc
  | resume => cases hc
  | _ => rfl

/-- What the bytes of one command decode to has these bytes (30_encoding.md R104, R112). -/
theorem encode_of_decodeCommand {b : List Byte} {i : Instr} (h : decodeCommand b = some i) :
    i.isCommand = true ∧ i.wellFormed = true ∧ encode i = b := by
  unfold decodeCommand at h
  split at h
  case h_1 op =>
    split_ifs at h with h60 h50 hend h7 h8 <;> cases h
    · exact ⟨rfl, rfl, by rw [h60]; rfl⟩
    · exact ⟨rfl, rfl, by rw [h50]; rfl⟩
    · exact ⟨rfl, rfl, by rw [hend]; rfl⟩
    · refine ⟨rfl, ?_, ?_⟩
      · have := (opLow op).isLt
        simp only [Instr.wellFormed, Bool.and_eq_true, decide_eq_true_eq]
        omega
      · simpa [encode] using waitsByte_of_opHigh op h7
    · exact ⟨rfl, rfl, by simpa [encode] using dacwByte_of_opHigh op h8⟩
  case h_2 op v => split_ifs at h with h1 h2 h3 <;> cases h <;> exact ⟨rfl, rfl, by simp [encode, *]⟩
  case h_3 op a d =>
    split_ifs at h with h1 h2 h3 h4 <;> cases h <;> exact ⟨rfl, rfl, by simp [encode, leByte_le16, *]⟩
  case h_4 op b1 b2 b3 b4 =>
    split_ifs at h with h1 h2 h3 <;> cases h <;> exact ⟨rfl, rfl, by simp [encode, leByte_le16, *]⟩
  case h_5 op s f0 f1 f2 f3 => split_ifs at h with h1; cases h; exact ⟨rfl, rfl, by simp [encode, leByte_le32, *]⟩
  case h_6 op s a0 a1 a2 a3 m l0 l1 l2 l3 =>
    split_ifs at h with h1; cases h; exact ⟨rfl, rfl, by simp [encode, leByte_le32, *]⟩
  case h_7 => cases h

/-- Settles O1: the head byte's length is the encoding's, and exactly those bytes decode to the command. -/
theorem decodeInvertsEncode : Obligations.DecodeInvertsEncode := by
  unfold Obligations.DecodeInvertsEncode
  intro i rest hc hw
  have hlaw := encodedLength i hw
  rw [if_pos hc] at hlaw
  obtain ⟨op, tail, henc, hlen, -⟩ := hlaw
  have hcmd := decodeCommand_encode hc hw
  rw [henc] at hlen hcmd ⊢
  exact decode_eq_ok hlen (by simp) (by simp) (by simpa using hcmd)

/-- Settles O2: a successful decode reads a prefix of the bytes, and the encoder gives that prefix back. -/
theorem encodeInvertsDecode : Obligations.EncodeInvertsDecode := by
  unfold Obligations.EncodeInvertsDecode
  intro bs i n h
  obtain ⟨op, -, -, -, hn, hcmd⟩ := decode_ok h
  obtain ⟨hc, hw, henc⟩ := encode_of_decodeCommand hcmd
  refine ⟨hc, hw, ?_, ?_⟩
  · rw [henc, List.length_take, Nat.min_eq_left hn]
  · rw [henc, List.take_append_drop]

/-! ### The verdict by the head byte -/

/-- Which opcode bytes begin a command of each length (30_encoding.md R103). -/
theorem cmdLen_inverse : ∀ op : Byte,
    cmdLen op = 0 ∨
    (cmdLen op = 1 ∧ (op = 0x62 ∨ op = 0x63 ∨ op = 0x66 ∨ opHigh op = 0x7 ∨ opHigh op = 0x8)) ∨
    (cmdLen op = 2 ∧ (op = 0x4F ∨ op = 0x50 ∨ op = 0x94)) ∨
    (cmdLen op = 3 ∧ (op = 0x52 ∨ op = 0x53 ∨ op = 0x61 ∨ op = 0xB2)) ∨
    (cmdLen op = 5 ∧ (op = 0x90 ∨ op = 0x91 ∨ op = 0x95)) ∨
    (cmdLen op = 6 ∧ op = 0x92) ∨ (cmdLen op = 11 ∧ op = 0x93) := by
  decide

/-- As many bytes as the head's length says are the bytes of a command (30_encoding.md R105). -/
theorem decodeCommand_isSome {op : Byte} {rest : List Byte} (h0 : cmdLen op ≠ 0)
    (hlen : (op :: rest).length = cmdLen op) : (decodeCommand (op :: rest)).isSome = true := by
  rcases cmdLen_inverse op with h | ⟨h, hop⟩ | ⟨h, hop⟩ | ⟨h, hop⟩ | ⟨h, hop⟩ | ⟨h, rfl⟩ | ⟨h, rfl⟩ <;>
    rw [h] at hlen
  · exact absurd h h0
  · match rest, hlen with
    | [], _ => rcases hop with rfl | rfl | rfl | h7 | h8 <;> simp [decodeCommand, *] <;> split_ifs <;> rfl
  · match rest, hlen with
    | [_], _ => rcases hop with rfl | rfl | rfl <;> rfl
  · match rest, hlen with
    | [_, _], _ => rcases hop with rfl | rfl | rfl | rfl <;> rfl
  · match rest, hlen with
    | [_, _, _, _], _ => rcases hop with rfl | rfl | rfl <;> rfl
  · match rest, hlen with
    | [_, _, _, _, _], _ => rfl
  · match rest, hlen with
    | [_, _, _, _, _, _, _, _, _, _], _ => rfl

theorem decode_unknown {op : Byte} (h : cmdLen op = 0) (rest : List Byte) :
    decode (op :: rest) = .error (.unknownOpcode op) := by
  simp only [decode, if_pos h]

theorem decode_truncated {op : Byte} {rest : List Byte} (h : cmdLen op ≠ 0) (hshort : (op :: rest).length < cmdLen op) :
    decode (op :: rest) = .error (.truncated op) := by
  simp only [decode, if_neg h, if_pos hshort]

/-- Settles O3: one lemma per verdict. -/
theorem decodeVerdictByHeadByte : Obligations.DecodeVerdictByHeadByte := by
  unfold Obligations.DecodeVerdictByHeadByte
  refine fun op rest => ⟨fun h => decode_unknown h rest, decode_truncated, fun h0 henough => ?_⟩
  have htake : ((op :: rest).take (cmdLen op)).length = cmdLen op := by
    rw [List.length_take, Nat.min_eq_left henough]
  obtain ⟨k, hk⟩ := Nat.exists_eq_succ_of_ne_zero h0
  have hsome : (decodeCommand ((op :: rest).take (cmdLen op))).isSome = true := by
    rw [hk, List.take_succ_cons] at htake ⊢
    exact decodeCommand_isSome h0 (htake.trans hk.symm)
  obtain ⟨i, hi⟩ := Option.isSome_iff_exists.1 hsome
  exact ⟨i, (encode_of_decodeCommand hi).1, decode_eq_ok rfl h0 henough hi⟩

/-! ### Tables and requests -/

set_option maxRecDepth 10000 in
/-- Settles O4: the length table, read at all 256 bytes. -/
theorem opcodeCounts : Obligations.OpcodeCounts := by
  unfold Obligations.OpcodeCounts
  refine ⟨?_, ?_, ?_, ?_⟩ <;> decide

/-- Settles O5: each word is evaluated. -/
theorem decodedSpecWords : Obligations.DecodedSpecWords := by
  unfold Obligations.DecodedSpecWords
  decide

/-- The word of a REQ register has each request at its bit (10_state.md R40). -/
theorem Req.word_getLsbD (r : Req) :
    r.word.getLsbD 0 = r.start ∧ r.word.getLsbD 1 = r.updMute ∧ r.word.getLsbD 2 = r.reset ∧
      r.word.getLsbD 3 = r.stop ∧ r.word.getLsbD 4 = r.resume := by
  obtain ⟨start, updMute, reset, stop, resume⟩ := r
  revert start updMute reset stop resume
  decide

/-- The request serviced is the lowest-numbered one that is set (60_exceptions.md R320). -/
theorem decodeReq_word (r : Req) :
    decodeReq r.word =
      if r.start then some .start
      else if r.updMute then some .updmute
      else if r.reset then some .reset
      else if r.stop then some .stop
      else if r.resume then some .resume
      else none := by
  obtain ⟨h0, h1, h2, h3, h4⟩ := Req.word_getLsbD r
  simp only [decodeReq, h0, h1, h2, h3, h4]

theorem decodeReq_encodeReq {i : Instr} (h : i.isCommand = false) : decodeReq (encodeReq i) = some i := by
  cases i with
  | start => rfl
  | updmute => rfl
  | reset => rfl
  | stop => rfl
  | resume => rfl
  | _ => cases h

/-- Settles O6: the five words, and the priority of `decodeReq` on a register's word. -/
theorem requestBits : Obligations.RequestBits :=
  ⟨fun _ h => decodeReq_encodeReq h, rfl, rfl, rfl, rfl, rfl, decodeReq_word⟩

end Sys2Proof.Machine
end

section
/-! SUPPORT. The tick (46_scheduler.md): the state each instruction answers, the parts of a Running tick, what a tick
can do said once, and the statements about when it does which. -/

namespace Sys2Proof.Machine

open Host

/-! ### The state an instruction answers -/

/-- The next state of an instruction; `exec_eq_after` says that `exec` answers it always. -/
def after (i : Instr) (s : State) : State :=
  match exec i s with
  | .next t => t
  | .fault _ => s
  | .refused _ => s

/-- No instruction faults or is refused (60_exceptions.md R321). -/
theorem exec_eq_after (i : Instr) (s : State) : exec i s = .next (after i s) := by
  cases i <;> rfl

theorem after_of_exec {i : Instr} {s t : State} (h : exec i s = .next t) : after i s = t := by
  rw [exec_eq_after] at h
  exact Outcome.next.inj h

theorem after_psgw (v : Byte) (s : State) : after (.psgw v) s = psgWrite v s := rfl

theorem after_fmw0 (reg val : Byte) (s : State) : after (.fmw0 reg val) s = fmWrite false reg val s := rfl

theorem after_fmw1 (reg val : Byte) (s : State) : after (.fmw1 reg val) s = fmWrite true reg val s := rfl

theorem after_dacw (n : BitVec 4) (s : State) : after (.dacw n) s = waitSamples (n.setWidth 32) (dacPop s) := rfl

theorem after_strfreq (sid : Byte) (f : U32) (s : State) : after (.strfreq sid f) s = streamFreq f s := rfl

theorem after_strstop (sid : Byte) (s : State) : after (.strstop sid) s = streamStop s := rfl

/-- Settles O16. -/
theorem everyInstructionCompletes : Obligations.EveryInstructionCompletes :=
  fun i s => ⟨after i s, exec_eq_after i s⟩

/-! ### What the DAC tick keeps -/

@[simp] theorem dacTick_cfg (s : State) : (dacTick s).cfg = s.cfg := by rw [dacTick_frame]

@[simp] theorem dacTick_mix (s : State) : (dacTick s).mix = s.mix := by rw [dacTick_frame]

@[simp] theorem dacTick_cmdPc (s : State) : (dacTick s).cmdPc = s.cmdPc := by rw [dacTick_frame]

@[simp] theorem dacTick_clk (s : State) : (dacTick s).clk = s.clk := by rw [dacTick_frame]

@[simp] theorem dacTick_status (s : State) : (dacTick s).status = s.status := by rw [dacTick_frame]

@[simp] theorem dacTick_fault (s : State) : (dacTick s).fault = s.fault := by rw [dacTick_frame]

@[simp] theorem dacTick_cmdq (s : State) : (dacTick s).cmdq = s.cmdq := by rw [dacTick_frame]

@[simp] theorem dacTick_pcmq (s : State) : (dacTick s).pcmq = s.pcmq := by rw [dacTick_frame]

@[simp] theorem dacTick_activity (s : State) : (dacTick s).activity = s.activity := by rw [dacTick_frame]

/-! ### The parts of a Running tick -/

/-- The end of a Running tick: the DAC tick if the block still runs (46_scheduler.md R285). -/
def finishTick (u : State) : State := if u.status.running then dacTick u else u

theorem finishTick_of_running {u : State} (h : u.status.running = true) : finishTick u = dacTick u := if_pos h

theorem runningTick_notDue {s : State} (h : (clockAdvance s).due = false) :
    runningTick s = .next (finishTick (clockAdvance s)) := by
  simp [runningTick, h, finishTick]

theorem runningTick_due {s : State} (h : (clockAdvance s).due = true) :
    runningTick s = andThen (commandStep (clockAdvance s)) fun u => .next (finishTick u) := by
  simp [runningTick, h, finishTick]

theorem commandStep_ok {s : State} {i : Instr} {n : Nat} (h : decode s.cmdq = .ok (i, n)) :
    commandStep s = exec i (fetched n s) := by
  simp [commandStep, h]

theorem commandStep_underrun {s : State}
    (h : decode s.cmdq = .error .empty ∨ ∃ op, decode s.cmdq = .error (.truncated op)) :
    commandStep s = .next (s.raiseError .cmdUnderrun) := by
  obtain h | ⟨op, h⟩ := h <;> simp [commandStep, h]

theorem commandStep_unknown {s : State} {op : Byte} (h : decode s.cmdq = .error (.unknownOpcode op)) :
    commandStep s = .next (s.raiseError (.unknownOpcode op)) := by
  simp [commandStep, h]

theorem tick_running {s : State} (hreq : decodeReq s.req.word = none) (hrun : s.status.running = true) :
    tick s = runningTick (clearFault s) := by
  obtain ⟨i, hi, -⟩ | ⟨-, -, h⟩ | ⟨-, hidle, -⟩ := tick_cases s
  · cases hreq.symm.trans hi
  · exact h
  · cases hrun.symm.trans hidle

theorem tick_request {s : State} {i : Instr} (hreq : decodeReq s.req.word = some i) :
    tick s = exec i (clearFault s) := by
  obtain ⟨j, hj, h⟩ | ⟨hnone, -⟩ | ⟨hnone, -⟩ := tick_cases s
  · cases hreq.symm.trans hj
    exact h
  · cases hreq.symm.trans hnone
  · cases hreq.symm.trans hnone

theorem tick_idle {s : State} (hreq : decodeReq s.req.word = none) (hidle : s.status.running = false) :
    tick s = .next (clearFault s) := by
  obtain ⟨i, hi, -⟩ | ⟨-, hrun, -⟩ | ⟨-, -, h⟩ := tick_cases s
  · cases hreq.symm.trans hi
  · cases hidle.symm.trans hrun
  · exact h

theorem step_eq {s : State} (h : s.setupOk = true) : step s = andThen (tick s) betweenTicks := if_pos h

/-! ### Everything a tick can do -/

/-- The command part of a Running tick, from the state `c` after the clock advance (46_scheduler.md R285 to R287). -/
inductive CommandPart (c : State) : State → Prop where
  | notDue (hdue : c.due = false) : CommandPart c c
  | runs (i : Instr) (n : Nat) (hdue : c.due = true) (hdecode : decode c.cmdq = .ok (i, n)) :
    CommandPart c (after i (fetched n c))
  | underrun (hdecode : ∀ i n, decode c.cmdq ≠ .ok (i, n)) : CommandPart c (c.raiseError .cmdUnderrun)
  | unknown (op : Byte) (hdecode : ∀ i n, decode c.cmdq ≠ .ok (i, n)) :
    CommandPart c (c.raiseError (.unknownOpcode op))

/-- What a tick answers: the work of a request, of an idle tick, or of a Running one (46_scheduler.md R283). -/
inductive TickWork (s : State) : State → Prop where
  | request (i : Instr) (hreq : decodeReq s.req.word = some i) : TickWork s (after i (clearFault s))
  | idle (hreq : decodeReq s.req.word = none) (hidle : s.status.running = false) : TickWork s (clearFault s)
  | running (u : State) (hreq : decodeReq s.req.word = none) (hrun : s.status.running = true)
    (hpart : CommandPart (clockAdvance (clearFault s)) u) : TickWork s (finishTick u)

theorem commandPart_of_commandStep {c u : State} (hdue : c.due = true) (h : commandStep c = .next u) :
    CommandPart c u := by
  obtain ⟨i, n, hdec, heq⟩ | ⟨hdec, heq⟩ | ⟨op, hdec, heq⟩ := commandStep_cases c
  · rw [← after_of_exec (heq.symm.trans h)]
    exact .runs i n hdue hdec
  · cases heq.symm.trans h
    refine .underrun fun i n hok => ?_
    obtain hdec | ⟨op, hdec⟩ := hdec <;> cases hok.symm.trans hdec
  · cases heq.symm.trans h
    exact .unknown op fun i n hok => by cases hok.symm.trans hdec

/-- The inversion of `tick`. -/
theorem tickWork_of_tick {s t : State} (h : tick s = .next t) : TickWork s t := by
  cases hreq : decodeReq s.req.word with
  | some i =>
    rw [tick_request hreq] at h
    rw [← after_of_exec h]
    exact .request i hreq
  | none =>
    cases hrun : s.status.running with
    | false =>
      cases (tick_idle hreq hrun).symm.trans h
      exact .idle hreq hrun
    | true =>
      rw [tick_running hreq hrun] at h
      cases hdue : (clockAdvance (clearFault s)).due with
      | false =>
        cases (runningTick_notDue hdue).symm.trans h
        exact .running _ hreq hrun (.notDue hdue)
      | true =>
        rw [runningTick_due hdue, andThen_eq_next] at h
        obtain ⟨u, hu, ht⟩ := h
        cases ht
        exact .running u hreq hrun (commandPart_of_commandStep hdue hu)

/-- The operations a tick is put together from (46_scheduler.md R283 to R288). -/
inductive TickPart : State → State → Prop where
  | clear (s : State) : TickPart s (clearFault s)
  | clock (s : State) : TickPart s (clockAdvance s)
  | fetch (n : Nat) (s : State) (henough : n ≤ s.cmdq.length) : TickPart s (fetched n s)
  | underrun (s : State) : TickPart s (s.raiseError .cmdUnderrun)
  | unknown (op : Byte) (s : State) : TickPart s (s.raiseError (.unknownOpcode op))
  | exec (i : Instr) (s : State) : TickPart s (after i s)
  | dac (s : State) : TickPart s (dacTick s)

/-- A transitive relation that holds across every part of a tick holds across the tick. -/
theorem tick_relates {R : State → State → Prop} (htrans : ∀ s t u, R s t → R t u → R s u)
    (hpart : ∀ s t, TickPart s t → R s t) {s t : State} (h : tick s = .next t) : R s t := by
  have hclear : R s (clearFault s) := hpart _ _ (.clear s)
  cases tickWork_of_tick h with
  | request i hreq => exact htrans _ _ _ hclear (hpart _ _ (.exec i _))
  | idle hreq hidle => exact hclear
  | running u hreq hrun hcommand =>
    have hclock := htrans _ _ _ hclear (hpart _ _ (.clock (clearFault s)))
    have hu : R s u := by
      cases hcommand with
      | notDue hdue => exact hclock
      | runs i n hdue hdecode =>
        obtain ⟨-, -, -, -, henough, -⟩ := decode_ok hdecode
        exact htrans _ _ _ (htrans _ _ _ hclock (hpart _ _ (.fetch n _ henough))) (hpart _ _ (.exec i _))
      | underrun hdecode => exact htrans _ _ _ hclock (hpart _ _ (.underrun _))
      | unknown op hdecode => exact htrans _ _ _ hclock (hpart _ _ (.unknown op _))
    unfold finishTick
    split
    · exact htrans _ _ _ hu (hpart _ _ (.dac u))
    · exact hu

/-! ### The statements about the tick's branches -/

/-- Settles O7: the tick is the Running one, its command is due, and the fetch is the state with the bytes taken. -/
theorem stepRunsDecodedCommand : Obligations.StepRunsDecodedCommand := by
  unfold Obligations.StepRunsDecodedCommand
  intro s i n hok hreq hrun hdue hdecode
  obtain ⟨-, -, -, -, hlen, -⟩ := decode_ok hdecode
  have hdue' : (clockAdvance (clearFault s)).due = true := hdue
  have hstep : commandStep (clockAdvance (clearFault s)) = exec i (fetched n (clockAdvance (clearFault s))) :=
    commandStep_ok hdecode
  have hfetch := fetched_eq n (clockAdvance (clearFault s)) hlen
  rw [step_eq hok, tick_running hreq hrun, runningTick_due hdue', hstep, hfetch]
  rfl

/-- Settles O8: one lemma per branch of the tick. -/
theorem stepServicesRequestOrIdles : Obligations.StepServicesRequestOrIdles := by
  unfold Obligations.StepServicesRequestOrIdles
  intro s hok
  rw [step_eq hok]
  refine ⟨fun i hreq => ?_, fun hreq hidle => ?_⟩
  · rw [tick_request hreq]
    rfl
  · rw [tick_idle hreq hidle]
    rfl

/-- Settles O9: the sum fits, so the clock's addition is the one of naturals, and below NEXTDUE no command is due. -/
theorem runningTickWithNothingDue : Obligations.RunningTickWithNothingDue := by
  unfold Obligations.RunningTickWithNothingDue
  intro s hreq hrun hfits
  refine ⟨addCycles s.clk.cyc (s.hwcc - s.clk.lastHw), addCycles_of_fits hfits, fun hbelow => ?_⟩
  have hnotDue : (clockAdvance (clearFault s)).due = false := decide_eq_false (BitVec.not_le.2 hbelow)
  have hstill : (clockAdvance (clearFault s)).status.running = true := hrun
  rw [tick_running hreq hrun, runningTick_notDue hnotDue, finishTick_of_running hstill]
  rfl

/-- A Running tick whose command step only raises an error ends with the DAC tick (46_scheduler.md R285). -/
theorem tick_of_commandStep_next {s u : State} (hreq : decodeReq s.req.word = none)
    (hrun : s.status.running = true) (hdue : (clockAdvance s).due = true)
    (hstep : commandStep (clockAdvance (clearFault s)) = .next u) (hstill : u.status.running = true) :
    tick s = .next (dacTick u) := by
  have hdue' : (clockAdvance (clearFault s)).due = true := hdue
  rw [tick_running hreq hrun, runningTick_due hdue', hstep, andThen_next, finishTick_of_running hstill]

/-- Settles O10: the decoder's verdict is empty or truncated, and raising the error keeps what the DAC tick keeps. -/
theorem commandUnderrun : Obligations.CommandUnderrun := by
  unfold Obligations.CommandUnderrun
  intro s hreq hrun hdue hshort
  have hverdict : decode s.cmdq = .error .empty ∨ ∃ op, decode s.cmdq = .error (.truncated op) := by
    obtain hnil | ⟨op, rest, hcons, hknown, hlen⟩ := hshort
    · exact .inl (by rw [hnil]; rfl)
    · exact .inr ⟨op, by rw [hcons] at hlen ⊢; exact decode_truncated hknown hlen⟩
  refine ⟨_, tick_of_commandStep_next hreq hrun hdue (commandStep_underrun hverdict) hrun, rfl, ?_⟩
  have hstays : (dacTick ((clockAdvance (clearFault s)).raiseError .cmdUnderrun)).due = true := by
    rw [State.due, dacTick_clk]
    exact hdue
  exact ⟨dacTick_status _, dacTick_cmdq _, dacTick_cmdPc _, dacTick_clk _, hstays⟩

/-- Settles O11: the verdict is unknown opcode, raising the error keeps what the DAC tick keeps, and the two
unsupported commands are evaluated. -/
theorem unknownOpcode : Obligations.UnknownOpcode := by
  unfold Obligations.UnknownOpcode
  refine ⟨fun s op rest hreq hrun hdue hq hlen => ?_, fun v s => rfl, fun a d s => rfl⟩
  have hverdict : decode s.cmdq = .error (.unknownOpcode op) := by
    rw [hq]
    exact decode_unknown hlen rest
  refine ⟨_, tick_of_commandStep_next hreq hrun hdue (commandStep_unknown hverdict) hrun, rfl, ?_⟩
  have hclk := dacTick_clk ((clockAdvance (clearFault s)).raiseError (.unknownOpcode op))
  have hstays : (dacTick ((clockAdvance (clearFault s)).raiseError (.unknownOpcode op))).due = true := by
    rw [State.due, hclk]
    exact hdue
  exact ⟨dacTick_fault _, dacTick_cmdq _, dacTick_cmdPc _, dacTick_mix _, dacTick_status _,
    by rw [hclk]; rfl, hstays⟩

/-- Settles O12: `step` tests SETUP_OK before it ticks. -/
theorem setupFailureNeverTicks : Obligations.SetupFailureNeverTicks := by
  unfold Obligations.SetupFailureNeverTicks
  intro s h
  simp [step, h]

end Sys2Proof.Machine
end

section
/-! SUPPORT. Frames: what each meaning may write, once per meaning, and from that what no instruction and no tick
writes. -/

namespace Sys2Proof.Machine

open Host

/-! ### What each meaning may write -/

theorem psgWrite_frame (v : Byte) (s : State) :
    psgWrite v s =
      { s with
        ser := (psgWrite v s).ser
        mix := { s.mix with psgAtt := (psgWrite v s).mix.psgAtt }
        trk :=
          { s.trk with
            psgCh := (psgWrite v s).trk.psgCh
            psgType := (psgWrite v s).trk.psgType
            psgLow := (psgWrite v s).trk.psgLow
            psgLowV := (psgWrite v s).trk.psgLowV }
        activity := (psgWrite v s).activity } := by
  simp only [psgWrite, psgFreqLatch, psgFreqData]
  split_ifs <;> rfl

theorem fmKeyOn_frame (val : Byte) (s : State) :
    fmKeyOn val s = { s with ser := (fmKeyOn val s).ser, activity := (fmKeyOn val s).activity } := by
  simp only [fmKeyOn]
  split <;> rfl

theorem fmWrite_frame (port : Bool) (reg val : Byte) (s : State) :
    fmWrite port reg val s =
      { s with
        ser := (fmWrite port reg val s).ser
        mix :=
          { s.mix with fmPan := (fmWrite port reg val s).mix.fmPan, fmAlg := (fmWrite port reg val s).mix.fmAlg }
        trk :=
          { s.trk with
            dacEn := (fmWrite port reg val s).trk.dacEn
            dacAcc := (fmWrite port reg val s).trk.dacAcc
            dacCnt := (fmWrite port reg val s).trk.dacCnt }
        activity := (fmWrite port reg val s).activity } := by
  unfold fmWrite
  cases fmClass port reg with
  | keyOn => simp only; rw [fmKeyOn_frame]
  | pan i => rfl
  | alg i => rfl
  | dacEn => rfl
  | dacData => rfl
  | chParam i => rfl
  | other => rfl

theorem waitSamples_frame (w : U32) (s : State) :
    waitSamples w s =
      { s with
        ser := (waitSamples w s).ser
        clk := { (waitSamples w s).clk with paused := s.clk.paused }
        act := { s.act with last := (waitSamples w s).act.last } } := by
  obtain ⟨-, h⟩ | ⟨-, -, h⟩ := waitSamples_cases w s <;> rw [h]
  rw [setFirstWait_eq]
  cases s.act.active <;> rfl

theorem dacPop_frame (s : State) :
    dacPop s =
      { s with
        ser := (dacPop s).ser
        pcmq := (dacPop s).pcmq
        status := { s.status with pcmUnderrun := (dacPop s).status.pcmUnderrun }
        log := (dacPop s).log } := by
  obtain ⟨b, rest, -, h⟩ | ⟨-, h⟩ := dacPop_cases s
  · rw [h]
    rfl
  · rw [h]

theorem waitSamples_dacPop_frame (w : U32) (s : State) :
    waitSamples w (dacPop s) =
      { s with
        ser := (waitSamples w (dacPop s)).ser
        clk := { (waitSamples w (dacPop s)).clk with paused := s.clk.paused }
        act := { s.act with last := (waitSamples w (dacPop s)).act.last }
        pcmq := (dacPop s).pcmq
        status := { s.status with pcmUnderrun := (dacPop s).status.pcmUnderrun }
        log := (dacPop s).log } := by
  obtain ⟨b, rest, -, h⟩ | ⟨-, h⟩ := dacPop_cases s
  · rw [h]
    exact waitSamples_frame w _
  · rw [h]
    exact waitSamples_frame w _

theorem streamFreq_frame (f : U32) (s : State) :
    streamFreq f s =
      { s with act := { s.act with rate := (streamFreq f s).act.rate }, log := (streamFreq f s).log } := by
  unfold streamFreq
  split <;> rfl

theorem streamStop_frame (s : State) :
    streamStop s =
      { s with act := { s.act with active := (streamStop s).act.active }, slots := (streamStop s).slots } := by
  unfold streamStop
  split <;> rfl

theorem streamStart_frame (s : State) :
    streamStart s =
      { s with
        seq := s.seq + 1
        lastSeq := (streamStart s).lastSeq
        act := (streamStart s).act
        slots := (streamStart s).slots
        log := (streamStart s).log } := by
  obtain ⟨-, h⟩ | ⟨m, -, h⟩ := streamStart_cases s <;> rw [h]
  · rw [retireSkipped_frame]
    rfl
  · rw [activateSlot_freeReplaced_frame]
    rfl

theorem serviceResume_frame (s : State) :
    serviceResume s =
      { s with
        ser := (serviceResume s).ser
        req := { s.req with resume := false }
        clk := { s.clk with cyc := pausedCycles s, lastHw := s.hwcc, sample := s.clk.paused }
        act := rebasedStream s.act (pausedCycles s)
        status := { s.status with running := true }
        stopped := false } := rfl

/-! ### What no instruction writes -/

/-- `t` has the configuration, the inputs, the controls, the command queue, CMDPC and FAULT of `s`. -/
structure InstrFrame (s t : State) : Prop where
  cfg : t.cfg = s.cfg
  setupOk : t.setupOk = s.setupOk
  hwcc : t.hwcc = s.hwcc
  ticks : t.ticks = s.ticks
  agenda : t.agenda = s.agenda
  ctl : t.ctl = s.ctl
  cmdq : t.cmdq = s.cmdq
  cmdPc : t.cmdPc = s.cmdPc
  fault : t.fault = s.fault

theorem InstrFrame.of_eq {s t : State} {ser mix trk clk req status stopped seq lastSeq act slots pcmq activity log}
    (h : t =
      { s with
        ser := ser, mix := mix, trk := trk, clk := clk, req := req, status := status, stopped := stopped, seq := seq,
        lastSeq := lastSeq, act := act, slots := slots, pcmq := pcmq, activity := activity, log := log }) :
    InstrFrame s t := by
  subst h
  exact ⟨rfl, rfl, rfl, rfl, rfl, rfl, rfl, rfl, rfl⟩

theorem after_instrFrame (i : Instr) (s : State) : InstrFrame s (after i s) := by
  cases i with
  | psgw v => exact .of_eq (psgWrite_frame v s)
  | fmw0 reg val => exact .of_eq (fmWrite_frame false reg val s)
  | fmw1 reg val => exact .of_eq (fmWrite_frame true reg val s)
  | wait n => exact .of_eq (waitSamples_frame (n.setWidth 32) s)
  | wait60 => exact .of_eq (waitSamples_frame wait60Amount s)
  | wait50 => exact .of_eq (waitSamples_frame wait50Amount s)
  | waits n => exact .of_eq (waitSamples_frame (BitVec.ofNat 32 n) s)
  | dacw n => exact .of_eq (waitSamples_dacPop_frame (n.setWidth 32) s)
  | strfreq sid f => exact .of_eq (streamFreq_frame f s)
  | strstart sid a m l => exact .of_eq (streamStart_frame s)
  | strstop sid => exact .of_eq (streamStop_frame s)
  | strfast sid b f => exact .of_eq (streamStart_frame s)
  | resume => exact .of_eq (serviceResume_frame s)
  | _ => exact .of_eq rfl

theorem dacTick_instrFrame (s : State) : InstrFrame s (dacTick s) := .of_eq (dacTick_frame s)

theorem finishTick_instrFrame (s : State) : InstrFrame s (finishTick s) := by
  unfold finishTick
  split
  · exact dacTick_instrFrame s
  · exact .of_eq rfl

/-- What an instruction that is no chip write and no Start writes: not the caches, tracking or activity. -/
theorem keepsCaches_of_eq {s t : State} {ser clk req status stopped seq lastSeq act slots pcmq log}
    (h : t =
      { s with
        ser := ser, clk := clk, req := req, status := status, stopped := stopped, seq := seq, lastSeq := lastSeq,
        act := act, slots := slots, pcmq := pcmq, log := log }) :
    t.mix = s.mix ∧ t.activity = s.activity ∧ t.trk = s.trk := by
  subst h
  exact ⟨rfl, rfl, rfl⟩

/-- What an instruction that is no request service and no END writes: not RUNNING, STOPPED or FINISHED. -/
theorem keepsMode_of_eq {s t : State} {ser mix trk clk req seq lastSeq act slots pcmq activity log ack pcm}
    (h : t =
      { s with
        ser := ser, mix := mix, trk := trk, clk := clk, req := req,
        status := { s.status with resetAck := ack, pcmUnderrun := pcm }, seq := seq, lastSeq := lastSeq, act := act,
        slots := slots, pcmq := pcmq, activity := activity, log := log }) :
    t.mode = s.mode ∧ t.status.finished = s.status.finished := by
  subst h
  exact ⟨rfl, rfl⟩

/-! ### The statements -/

/-- Settles O13: the fetch takes the bytes and counts them, and no other part of a tick moves CMDQ or CMDPC. -/
theorem cmdPcCountsConsumedBytes : Obligations.CmdPcCountsConsumedBytes := by
  unfold Obligations.CmdPcCountsConsumedBytes
  intro s t htick
  cases tickWork_of_tick htick with
  | request i hreq =>
    have hframe := after_instrFrame i (clearFault s)
    exact ⟨fun _ _ _ _ _ _ hnone => (nomatch hreq.symm.trans hnone), fun _ => ⟨hframe.cmdPc, hframe.cmdq⟩⟩
  | idle hreq hidle =>
    exact ⟨fun _ _ _ _ _ _ _ hrun => (nomatch hidle.symm.trans hrun), fun _ => ⟨rfl, rfl⟩⟩
  | running u hreq hrun hpart =>
    have hframe := finishTick_instrFrame u
    rw [hframe.cmdPc, hframe.cmdq]
    cases hpart with
    | notDue hdue =>
      exact ⟨fun _ _ _ _ _ _ _ _ hdue' => (nomatch hdue.symm.trans hdue'), fun _ => ⟨rfl, rfl⟩⟩
    | underrun hdecode => exact ⟨fun _ _ i n _ hok => absurd hok (hdecode i n), fun _ => ⟨rfl, rfl⟩⟩
    | unknown op hdecode => exact ⟨fun _ _ i n _ hok => absurd hok (hdecode i n), fun _ => ⟨rfl, rfl⟩⟩
    | runs i n hdue hdecode =>
      obtain ⟨op, hhead, hlen, -, henough, -⟩ := decode_ok hdecode
      have hexec := after_instrFrame i (fetched n (clockAdvance (clearFault s)))
      rw [hexec.cmdPc, hexec.cmdq, fetched_eq n _ henough]
      refine ⟨fun op' rest _ _ hq _ _ _ _ => ?_, fun hnot => ?_⟩
      · have hop : op' = op := by
          change s.cmdq.head? = some op at hhead
          simpa [hq] using hhead
        rw [hop, ← hlen]
        exact ⟨rfl, rfl⟩
      · obtain hpending | hidle | hnotDue | hfails := hnot
        · exact absurd hreq hpending
        · cases hrun.symm.trans hidle
        · cases hdue.symm.trans hnotDue
        · exact absurd hdecode (hfails i n)

/-- Settles O54: END and the mode-changing services are evaluated, every other instruction by its frame. -/
theorem modeTransitions : Obligations.ModeTransitions := by
  unfold Obligations.ModeTransitions
  intro i s
  refine ⟨after i s, exec_eq_after i s, ?_⟩
  have hkept : i ≠ .start → i ≠ .resume → i ≠ .stop → i ≠ .endStream →
      (after i s).mode = s.mode ∧ (after i s).status.finished = s.status.finished := by
    intro hstart hresume hstop hend
    cases i with
    | start => exact absurd rfl hstart
    | resume => exact absurd rfl hresume
    | stop => exact absurd rfl hstop
    | endStream => exact absurd rfl hend
    | psgw v => exact keepsMode_of_eq (psgWrite_frame v s)
    | fmw0 reg val => exact keepsMode_of_eq (fmWrite_frame false reg val s)
    | fmw1 reg val => exact keepsMode_of_eq (fmWrite_frame true reg val s)
    | wait n => exact keepsMode_of_eq (waitSamples_frame (n.setWidth 32) s)
    | wait60 => exact keepsMode_of_eq (waitSamples_frame wait60Amount s)
    | wait50 => exact keepsMode_of_eq (waitSamples_frame wait50Amount s)
    | waits n => exact keepsMode_of_eq (waitSamples_frame (BitVec.ofNat 32 n) s)
    | dacw n => exact keepsMode_of_eq (waitSamples_dacPop_frame (n.setWidth 32) s)
    | strfreq sid f => exact keepsMode_of_eq (streamFreq_frame f s)
    | strstart sid a m l => exact keepsMode_of_eq (streamStart_frame s)
    | strstop sid => exact keepsMode_of_eq (streamStop_frame s)
    | strfast sid b f => exact keepsMode_of_eq (streamStart_frame s)
    | _ => exact ⟨rfl, rfl⟩
  cases i with
  | start => exact ⟨rfl, nofun, fun _ hstart => absurd rfl hstart⟩
  | resume => exact ⟨rfl, nofun, fun _ _ => rfl⟩
  | stop => exact ⟨rfl, nofun, fun _ _ => rfl⟩
  | endStream => exact ⟨rfl, fun _ => rfl, fun hend => absurd rfl hend⟩
  | _ =>
    obtain ⟨hmode, hfinished⟩ := hkept nofun nofun nofun nofun
    exact ⟨hmode, nofun, fun _ _ => hfinished⟩

/-- What a tick keeps of the configuration, the inputs and the controls. -/
structure InputsKept (s t : State) : Prop where
  ctl : t.ctl = s.ctl
  cfg : t.cfg = s.cfg
  setupOk : t.setupOk = s.setupOk
  hwcc : t.hwcc = s.hwcc
  ticks : t.ticks = s.ticks
  agenda : t.agenda = s.agenda

theorem InputsKept.trans {s t u : State} (h1 : InputsKept s t) (h2 : InputsKept t u) : InputsKept s u :=
  ⟨h2.ctl.trans h1.ctl, h2.cfg.trans h1.cfg, h2.setupOk.trans h1.setupOk, h2.hwcc.trans h1.hwcc,
    h2.ticks.trans h1.ticks, h2.agenda.trans h1.agenda⟩

theorem InstrFrame.inputsKept {s t : State} (h : InstrFrame s t) : InputsKept s t :=
  ⟨h.ctl, h.cfg, h.setupOk, h.hwcc, h.ticks, h.agenda⟩

theorem tickPart_inputsKept {s t : State} (h : TickPart s t) : InputsKept s t := by
  cases h with
  | clear => exact ⟨rfl, rfl, rfl, rfl, rfl, rfl⟩
  | clock => exact ⟨rfl, rfl, rfl, rfl, rfl, rfl⟩
  | underrun => exact ⟨rfl, rfl, rfl, rfl, rfl, rfl⟩
  | unknown op => exact ⟨rfl, rfl, rfl, rfl, rfl, rfl⟩
  | fetch n _ henough =>
    rw [fetched_eq n s henough]
    exact ⟨rfl, rfl, rfl, rfl, rfl, rfl⟩
  | exec i => exact (after_instrFrame i s).inputsKept
  | dac => exact (dacTick_instrFrame s).inputsKept

theorem tick_inputsKept {s t : State} (h : tick s = .next t) : InputsKept s t :=
  tick_relates (R := InputsKept) (fun _ _ _ => InputsKept.trans) (fun _ _ => tickPart_inputsKept) h

/-- Settles O55: the tick by its parts, the instructions by their frames. -/
theorem controlsAndCachesWriters : Obligations.ControlsAndCachesWriters := by
  unfold Obligations.ControlsAndCachesWriters
  refine ⟨fun s t htick => ?_, fun i s hpsgw hfmw0 hfmw1 hstart => ⟨after i s, exec_eq_after i s, ?_⟩⟩
  · obtain ⟨hctl, hcfg, hsetup, hhwcc, hticks, hagenda⟩ := tick_inputsKept htick
    exact ⟨hctl, hcfg, hsetup, hhwcc, hticks, hagenda⟩
  · cases i with
    | psgw v => exact absurd rfl (hpsgw v)
    | fmw0 reg val => exact absurd rfl (hfmw0 reg val)
    | fmw1 reg val => exact absurd rfl (hfmw1 reg val)
    | start => exact absurd rfl hstart
    | wait n => exact keepsCaches_of_eq (waitSamples_frame (n.setWidth 32) s)
    | wait60 => exact keepsCaches_of_eq (waitSamples_frame wait60Amount s)
    | wait50 => exact keepsCaches_of_eq (waitSamples_frame wait50Amount s)
    | waits n => exact keepsCaches_of_eq (waitSamples_frame (BitVec.ofNat 32 n) s)
    | dacw n => exact keepsCaches_of_eq (waitSamples_dacPop_frame (n.setWidth 32) s)
    | strfreq sid f => exact keepsCaches_of_eq (streamFreq_frame f s)
    | strstart sid a m l => exact keepsCaches_of_eq (streamStart_frame s)
    | strstop sid => exact keepsCaches_of_eq (streamStop_frame s)
    | strfast sid b f => exact keepsCaches_of_eq (streamStart_frame s)
    | _ => exact ⟨rfl, rfl, rfl⟩

end Sys2Proof.Machine
end

section
/-! SUPPORT. The register files (10_state.md R23 to R26, R49), the multiplexer's outputs (41_mix_engine.md R162, R164)
and PSGW (42_cmd_chip_writes.md R181 to R187). -/

namespace Sys2Proof.Machine

open Host

/-! ### The caches and the activity table as register files -/

@[simp] theorem psgAttAt_setPsgAtt_same (s : State) (c : BitVec 2) (v : Byte) : (s.setPsgAtt c v).psgAttAt c = v := by
  simp [State.psgAttAt]

theorem psgAttAt_setPsgAtt_other (s : State) {c d : BitVec 2} (h : d ≠ c) (v : Byte) :
    (s.setPsgAtt c v).psgAttAt d = s.psgAttAt d := by
  have hne : c.toNat ≠ d.toNat := fun e => h (BitVec.eq_of_toNat_eq e.symm)
  simp [State.psgAttAt, Vector.getElem_set_ne _ _ hne]

@[simp] theorem fmAlgAt_setFmAlg_same (s : State) (i : Fin 6) (v : BitVec 3) : (s.setFmAlg i v).fmAlgAt i = v := by
  simp [State.fmAlgAt]

theorem fmAlgAt_setFmAlg_other (s : State) {i j : Fin 6} (h : j ≠ i) (v : BitVec 3) :
    (s.setFmAlg i v).fmAlgAt j = s.fmAlgAt j := by
  have hne : i.val ≠ j.val := fun e => h (Fin.ext e.symm)
  simp [State.fmAlgAt, Vector.getElem_set_ne _ _ hne]

/-- `ACTIVITY[v] <- a`, what each write of one flag is. -/
theorem activityAt_set (s : State) (v k : Fin 10) (a : Activity) :
    State.activityAt { s with activity := s.activity.set v a } k = if k = v then a else s.activityAt k := by
  by_cases h : k = v
  · subst h
    simp [State.activityAt]
  · have hne : v.val ≠ k.val := fun e => h (Fin.ext e.symm)
    simp [State.activityAt, h, Vector.getElem_set_ne _ _ hne]

theorem activityAt_setKon (s : State) (v k : Fin 10) (b : Bool) :
    (s.setKon v b).activityAt k = if k = v then { s.activityAt v with kon := b } else s.activityAt k :=
  activityAt_set s v k _

theorem activityAt_setParam (s : State) (v k : Fin 10) :
    (s.setParam v).activityAt k = if k = v then { s.activityAt v with param := true } else s.activityAt k :=
  activityAt_set s v k _

theorem activityAt_setDac (s : State) (v k : Fin 10) (b : Bool) :
    (s.setDac v b).activityAt k = if k = v then { s.activityAt v with dac := b } else s.activityAt k :=
  activityAt_set s v k _

/-! ### The multiplexer -/

theorem armed_iff (s : State) : s.armed = true ↔ s.ctl.trimEn = true ∧ s.clk.fwSeen = false := by
  simp [State.armed]

/-- Both silencing steps together (41_mix_engine.md R164, R171): silencing twice is silencing once. -/
theorem psgAttOut_eq (s : State) (c : BitVec 2) (force : Bool) :
    s.psgAttOut c force =
      if force = true ∨ s.armed = true ∨ s.ctl.psgMask.getLsbD c.toNat = false then s.psgAttAt c ||| 0x0F
      else s.psgAttAt c := by
  have htwice : psgSilent (psgSilent (s.psgAttAt c)) = psgSilent (s.psgAttAt c) := by
    simp [psgSilent, BitVec.or_assoc]
  simp only [State.psgAttOut, Bool.or_eq_true]
  by_cases hforce : force = true ∨ s.armed = true
  · rw [if_pos hforce, htwice, ite_self, if_pos (hforce.imp_right .inl)]
    rfl
  · obtain ⟨hunforced, hunarmed⟩ := not_or.1 hforce
    rw [if_neg hforce]
    simp only [hunforced, hunarmed, Bool.false_eq_true, false_or]
    rfl

/-- The silencing step, then the mono step (41_mix_engine.md R162). -/
theorem fmPanOut_eq (s : State) (i : Fin 6) (force : Bool) :
    s.fmPanOut i force =
      monoPan s.ctl.forceMono
        (if force = true ∨ s.armed = true ∨ s.fmMaskBit i = false then s.fmPanAt i &&& 0x3F else s.fmPanAt i) := by
  simp only [State.fmPanOut, Bool.or_eq_true]
  by_cases hforce : force = true ∨ s.armed = true
  · rw [if_pos hforce, if_pos (hforce.imp_right .inl)]
    rfl
  · obtain ⟨hunforced, hunarmed⟩ := not_or.1 hforce
    rw [if_neg hforce]
    simp only [hunforced, hunarmed, Bool.false_eq_true, false_or]
    rfl

/-- Settles O34: `fmPanOut_eq` and `psgAttOut_eq` with the mask bit and `Armed` written out. -/
theorem multiplexerOutputs : Obligations.MultiplexerOutputs := by
  unfold Obligations.MultiplexerOutputs
  refine ⟨fun s i force => ?_, fun s c force => ?_⟩
  · simp only [fmPanOut_eq, armed_iff, State.fmMaskBit, monoPan, Fin.ext_iff]
    rfl
  · simp only [psgAttOut_eq, armed_iff]

/-! ### PSG writes -/

theorem psgKon_eq (a : BitVec 4) : psgKon a = decide (a ≠ 0xF) := by
  simp [psgKon, bne, beq_eq_decide]

/-- `WritePsgByte` on a ready machine (40_bus_serializer.md R138, R147). -/
theorem writePsgByte_emits {s : State} (h : BusReady s) (v : Byte) :
    Emits s.cfg.rev s.ser (s.writePsgByte v).ser 3 [.psgByte v] :=
  Ser.writePsgByte_emits h.1 h.2 v

/-- The byte a channel gets for an attenuation write of `cached` (42_cmd_chip_writes.md R183, 41_mix_engine.md R164). -/
def psgSent (s : State) (c : BitVec 2) (cached : Byte) : Byte :=
  if s.armed = true ∨ s.ctl.psgMask.getLsbD c.toNat = false then cached ||| 0x0F else cached

theorem psgAttWrite_ser (c : BitVec 2) (cached : Byte) (a : BitVec 4) (s : State) :
    (psgAttWrite c cached a s).ser = s.ser.writePsgByte s.cfg (psgSent s c cached) := by
  have hbyte : ((s.setPsgAtt c cached).psgActivity c a).psgAttOut c false = psgSent s c cached := by
    have hcache : ((s.setPsgAtt c cached).psgActivity c a).psgAttAt c = cached := psgAttAt_setPsgAtt_same s c cached
    rw [psgAttOut_eq, hcache]
    simp only [Bool.false_eq_true, false_or]
    rfl
  rw [← hbyte]
  rfl

theorem psgAttWrite_emits {s : State} (h : BusReady s) (c : BitVec 2) (cached : Byte) (a : BitVec 4) :
    Emits s.cfg.rev s.ser (psgAttWrite c cached a s).ser 3 [.psgByte (psgSent s c cached)] := by
  rw [psgAttWrite_ser]
  exact writePsgByte_emits h _

theorem psgAttWrite_frame (c : BitVec 2) (cached : Byte) (a : BitVec 4) (s : State) :
    psgAttWrite c cached a s =
      { s with
        ser := (psgAttWrite c cached a s).ser
        activity := (psgAttWrite c cached a s).activity
        mix := { s.mix with psgAtt := (psgAttWrite c cached a s).mix.psgAtt } } := rfl

theorem psgAttWrite_psgAttAt (c d : BitVec 2) (cached : Byte) (a : BitVec 4) (s : State) :
    (psgAttWrite c cached a s).psgAttAt d = if d = c then cached else s.psgAttAt d := by
  have hcache : (psgAttWrite c cached a s).psgAttAt d = (s.setPsgAtt c cached).psgAttAt d := rfl
  rw [hcache]
  split
  next h => rw [h, psgAttAt_setPsgAtt_same]
  next h => exact psgAttAt_setPsgAtt_other s h cached

theorem psgAttWrite_activityAt (c : BitVec 2) (cached : Byte) (a : BitVec 4) (s : State) (k : Fin 10) :
    (psgAttWrite c cached a s).activityAt k =
      if k = psgVoice c then { s.activityAt (psgVoice c) with kon := decide (a ≠ 0xF) } else s.activityAt k := by
  rw [← psgKon_eq]
  exact activityAt_setKon (s.setPsgAtt c cached) (psgVoice c) k (psgKon a)

/-! ### The four forms of PSGW -/

theorem psgWrite_attLatch {v : Byte} (hlatch : psgIsLatch v = true) (hatt : psgIsAtt v = true) (s : State) :
    psgWrite v s = psgAttWrite (psgChannel v) v (psgNibble v) (trackLatch v s) := by
  simp [psgWrite, hlatch, hatt, psgAttLatch]

theorem psgWrite_freqLatch {v : Byte} (hlatch : psgIsLatch v = true) (hfreq : psgIsAtt v = false) (s : State) :
    psgWrite v s = psgFreqLatch v (trackLatch v s) := by
  simp [psgWrite, hlatch, hfreq]

theorem psgWrite_attData {v : Byte} {s : State} (hdata : psgIsLatch v = false) (htype : s.trk.psgType = true) :
    psgWrite v s = psgAttWrite s.trk.psgCh (psgAttByte s.trk.psgCh (psgNibble v)) (psgNibble v) s := by
  simp [psgWrite, hdata, htype, psgAttData]

theorem psgWrite_freqData {v : Byte} {s : State} (hdata : psgIsLatch v = false) (htype : s.trk.psgType = false) :
    psgWrite v s = psgFreqData v s := by
  simp [psgWrite, hdata, htype]

/-- Settles O22: an attenuation write after the channel was tracked. -/
theorem psgwAttenuationLatch : Obligations.PsgwAttenuationLatch := by
  unfold Obligations.PsgwAttenuationLatch
  intro s v hready hlatch hatt
  refine ⟨_, exec_eq_after _ _, ?_⟩
  rw [after_psgw, psgWrite_attLatch hlatch hatt]
  refine ⟨?_, fun c hc => ?_, ?_, ?_, fun k hk => ?_, ?_, ?_⟩
  · rw [psgAttWrite_psgAttAt, if_pos rfl]
  · rw [psgAttWrite_psgAttAt, if_neg hc]
    rfl
  · rw [psgAttWrite_frame, trackLatch, hatt]
  · rw [psgAttWrite_activityAt, if_pos rfl]
    rfl
  · rw [psgAttWrite_activityAt, if_neg hk]
    rfl
  · exact (psgAttWrite_emits (s := trackLatch v s) hready _ _ _).events
  · exact psgAttWrite_frame _ _ _ _

theorem psgFreqLatch_trk (v : Byte) (s : State) :
    (psgFreqLatch v s).trk =
      { s.trk with
        psgLow := if psgChannel v ≠ 3 then v else s.trk.psgLow
        psgLowV := decide (psgChannel v ≠ 3) } := by
  by_cases h : psgChannel v ≠ 3
  · simp only [psgFreqLatch, if_pos h, decide_eq_true h]
    rfl
  · simp only [psgFreqLatch, if_neg h, decide_eq_false h]
    rfl

theorem psgFreqLatch_emits {s : State} (h : BusReady s) (v : Byte) :
    Emits s.cfg.rev s.ser (psgFreqLatch v s).ser 3 [.psgByte v] :=
  Ser.writePsgByte_emits h.1 h.2 v

/-- Settles O23: a frequency latch after the channel was tracked. -/
theorem psgwFrequencyLatch : Obligations.PsgwFrequencyLatch := by
  unfold Obligations.PsgwFrequencyLatch
  intro s v hready hlatch hfreq
  refine ⟨_, exec_eq_after _ _, ?_⟩
  rw [after_psgw, psgWrite_freqLatch hlatch hfreq]
  refine ⟨?_, (psgFreqLatch_emits (s := trackLatch v s) hready v).events, rfl⟩
  rw [psgFreqLatch_trk, trackLatch, hfreq]

/-- Settles O24: an attenuation write of the tracked channel. -/
theorem psgwAttenuationData : Obligations.PsgwAttenuationData := by
  unfold Obligations.PsgwAttenuationData
  intro s v hready hdata htype
  refine ⟨_, exec_eq_after _ _, ?_⟩
  rw [after_psgw, psgWrite_attData hdata htype]
  refine ⟨?_, fun c hc => ?_, ?_, fun k hk => ?_, ?_, ?_⟩
  · rw [psgAttWrite_psgAttAt, if_pos rfl]
  · rw [psgAttWrite_psgAttAt, if_neg hc]
  · rw [psgAttWrite_activityAt, if_pos rfl]
  · rw [psgAttWrite_activityAt, if_neg hk]
  · exact (psgAttWrite_emits hready _ _ _).events
  · exact psgAttWrite_frame _ _ _ _

/-! ### The frequency fix -/

theorem freqFixFires_iff (v : Byte) (s : State) :
    freqFixFires v s = true ↔
      s.ctl.freqFix = true ∧ s.trk.psgLowV = true ∧ s.trk.psgCh ≠ 3 ∧ s.trk.psgLow &&& 0x0F = 0 ∧ v &&& 0x3F = 0 := by
  simp [freqFixFires, and_assoc]

theorem psgFreqData_frame (v : Byte) (s : State) :
    psgFreqData v s = { s with ser := (psgFreqData v s).ser, trk := (psgFreqData v s).trk } := by
  unfold psgFreqData
  split <;> rfl

theorem psgFreqData_fires {v : Byte} {s : State} (h : freqFixFires v s = true) :
    psgFreqData v s = (applyFreqFix s).writePsgByte v := by
  simp [psgFreqData, h]

theorem psgFreqData_plain {v : Byte} {s : State} (h : freqFixFires v s = false) :
    psgFreqData v s = s.writePsgByte v := by
  simp [psgFreqData, h]

/-- The fix sends the changed low byte, then the data byte (42_cmd_chip_writes.md R186). -/
theorem freqFix_emits {s : State} (h : BusReady s) (v : Byte) :
    Emits s.cfg.rev s.ser ((applyFreqFix s).writePsgByte v).ser 6
      [.psgByte (s.trk.psgLow ||| 0x01), .psgByte v] := by
  have hlow := Ser.writePsgByte_emits h.1 h.2 (s.trk.psgLow ||| 0x01)
  exact hlow.trans (Ser.writePsgByte_emits h.1 hlow.ready v)

/-- Settles O25: the fix's condition is the statement's, and each branch is one or two PSG writes. -/
theorem psgwFrequencyData : Obligations.PsgwFrequencyData := by
  unfold Obligations.PsgwFrequencyData
  intro s v hready hdata htype
  refine ⟨_, exec_eq_after _ _, ?_⟩
  rw [after_psgw, psgWrite_freqData hdata htype]
  refine ⟨?_, psgFreqData_frame v s⟩
  simp only [← freqFixFires_iff]
  split
  next hfires =>
    rw [psgFreqData_fires hfires]
    exact ⟨rfl, (freqFix_emits hready v).events⟩
  next hplain =>
    rw [psgFreqData_plain (Bool.eq_false_iff.2 hplain)]
    exact ⟨rfl, (writePsgByte_emits hready v).events⟩

end Sys2Proof.Machine
end

section
/-! SUPPORT. The FM writes FMW0 and FMW1 (42_cmd_chip_writes.md R188 to R201): one lemma per class of register, and
which bytes can go out changed. -/

namespace Sys2Proof.Machine

open Host

/-! ### One FM write -/

/-- `WriteFmRegister` on a ready machine (40_bus_serializer.md R140, R147). -/
theorem writeFmRegister_emits {s : State} (h : BusReady s) (port reg val : Byte) :
    Emits s.cfg.rev s.ser (s.writeFmRegister port reg val).ser 7 (fmEvents port reg val) :=
  Ser.writeFmRegister_emits h.1 h.2 port reg val

theorem after_fmw (port : Bool) (reg val : Byte) (s : State) :
    after (fmw port reg val) s = fmWrite port reg val s := by
  cases port <;> rfl

/-! ### The classes -/

theorem fmWrite_alg {port : Bool} {reg : Byte} {i : Fin 6} (h : fmClass port reg = .alg i) (val : Byte) (s : State) :
    fmWrite port reg val s = fmAlg port reg val i s := by
  simp only [fmWrite, h]

theorem fmWrite_chParam {port : Bool} {reg : Byte} {i : Fin 6} (h : fmClass port reg = .chParam i) (val : Byte)
    (s : State) : fmWrite port reg val s = fmChParam port reg val i s := by
  simp only [fmWrite, h]

theorem fmWrite_other {port : Bool} {reg : Byte} (h : fmClass port reg = .other) (val : Byte) (s : State) :
    fmWrite port reg val s = s.writeFmRegister (portByte port) reg val := by
  simp only [fmWrite, h]

theorem after_fmw0_keyOn (val : Byte) (s : State) : after (.fmw0 0x28 val) s = fmKeyOn val s := rfl

theorem after_fmw0_dacData (val : Byte) (s : State) : after (.fmw0 0x2A val) s = fmDacData val s := rfl

theorem after_fmw0_dacEnable (val : Byte) (s : State) : after (.fmw0 0x2B val) s = fmDacEnable val s := rfl

set_option maxRecDepth 10000 in
/-- Every register from 0xB4 to 0xB6 is a pan register (20_memory.md R84). -/
theorem fmClass_of_panRange : ∀ (port : Bool) (reg : Byte), 0xB4 ≤ reg → reg ≤ 0xB6 →
    ∃ i, fmClass port reg = .pan i := by
  decide

/-! ### Algorithm and channel parameters -/

theorem fmAlg_fmAlgAt (port : Bool) (reg val : Byte) (i j : Fin 6) (s : State) :
    (fmAlg port reg val i s).fmAlgAt j = if j = i then val.extractLsb' 0 3 else s.fmAlgAt j := by
  have hcache : (fmAlg port reg val i s).fmAlgAt j = (s.setFmAlg i (val.extractLsb' 0 3)).fmAlgAt j := rfl
  rw [hcache]
  split
  next h => rw [h, fmAlgAt_setFmAlg_same]
  next h => exact fmAlgAt_setFmAlg_other s h _

theorem fmAlg_activityAt (port : Bool) (reg val : Byte) (i : Fin 6) (s : State) (k : Fin 10) :
    (fmAlg port reg val i s).activityAt k =
      if k = fmVoice i then { s.activityAt (fmVoice i) with param := true } else s.activityAt k :=
  activityAt_setParam (s.setFmAlg i (val.extractLsb' 0 3)) (fmVoice i) k

theorem fmChParam_activityAt (port : Bool) (reg val : Byte) (i : Fin 6) (s : State) (k : Fin 10) :
    (fmChParam port reg val i s).activityAt k =
      if k = fmVoice i then { s.activityAt (fmVoice i) with param := true } else s.activityAt k :=
  activityAt_setParam s (fmVoice i) k

/-- Settles O27: the cache and activity rules of `fmAlg`, and one FM write. -/
theorem fmwAlgorithm : Obligations.FmwAlgorithm := by
  unfold Obligations.FmwAlgorithm
  intro s i val hready
  refine ⟨_, exec_eq_after _ _, ?_⟩
  rw [after_fmw, fmWrite_alg (fmClass_alg i)]
  refine ⟨?_, fun j hj => ?_, ?_, fun k hk => ?_, (writeFmRegister_emits hready _ _ val).events, rfl⟩
  · rw [fmAlg_fmAlgAt, if_pos rfl]
  · rw [fmAlg_fmAlgAt, if_neg hj]
  · rw [fmAlg_activityAt, if_pos rfl]
  · rw [fmAlg_activityAt, if_neg hk]

/-- Settles O31: the activity rule of `fmChParam`, and one FM write. -/
theorem fmwChannelParameter : Obligations.FmwChannelParameter := by
  unfold Obligations.FmwChannelParameter
  intro s port reg val i hready hlow hhigh hsel hi
  refine ⟨_, exec_eq_after _ _, ?_⟩
  rw [after_fmw, fmWrite_chParam (fmClass_chParam port reg i hlow hhigh hsel hi)]
  refine ⟨?_, fun k hk => ?_, (writeFmRegister_emits hready _ _ val).events, rfl⟩
  · rw [fmChParam_activityAt, if_pos rfl]
  · rw [fmChParam_activityAt, if_neg hk]

/-- Settles O32: a register outside every class is one FM write. -/
theorem fmwOther : Obligations.FmwOther := by
  unfold Obligations.FmwOther
  intro s port reg val hready hpan halg hport0 hparam
  refine ⟨_, exec_eq_after _ _, ?_⟩
  rw [after_fmw, fmWrite_other (fmClass_other port reg hpan halg hport0 hparam)]
  exact ⟨(writeFmRegister_emits hready _ reg val).events, rfl⟩

/-! ### Key on -/

theorem fmKon_eq (alg : BitVec 3) (val : Byte) :
    fmKon alg val = decide (val.extractLsb' 4 4 &&& carrier alg ≠ 0) := by
  simp [fmKon, keyOnOperators, bne, beq_eq_decide]

theorem fmKeyOn_some {val : Byte} {i : Fin 6} (h : keyOnChannel val = some i) (s : State) :
    fmKeyOn val s = (s.setKon (fmVoice i) (fmKon (s.fmAlgAt i) val)).writeFmRegister 0 0x28 val := by
  simp only [fmKeyOn, h]

theorem fmKeyOn_none {val : Byte} (h : keyOnChannel val = none) (s : State) :
    fmKeyOn val s = s.writeFmRegister 0 0x28 val := by
  simp only [fmKeyOn, h]

theorem fmKeyOn_ser (val : Byte) (s : State) : (fmKeyOn val s).ser = s.ser.writeFmRegister s.cfg 0 0x28 val := by
  simp only [fmKeyOn]
  split <;> rfl

theorem fmKeyOn_activityAt {val : Byte} {i : Fin 6} (h : keyOnChannel val = some i) (s : State) (k : Fin 10) :
    (fmKeyOn val s).activityAt k =
      if k = fmVoice i then
        { s.activityAt (fmVoice i) with kon := decide (val.extractLsb' 4 4 &&& carrier (s.fmAlgAt i) ≠ 0) }
      else s.activityAt k := by
  rw [fmKeyOn_some h, ← fmKon_eq]
  exact activityAt_setKon s (fmVoice i) k _

/-- Settles O28: the carrier table is evaluated; the selector decides which flag is written. -/
theorem fmwKeyOn : Obligations.FmwKeyOn := by
  unfold Obligations.FmwKeyOn
  refine ⟨by decide, fun s val hready => ⟨_, exec_eq_after _ _, ?_⟩⟩
  rw [after_fmw0_keyOn]
  refine ⟨fun i hi => ?_, fun hnone => ?_, ?_, fmKeyOn_frame val s⟩
  · have hact := fmKeyOn_activityAt (keyOnChannel_some val i hi) s
    exact ⟨(hact _).trans (if_pos rfl), fun k hk => (hact k).trans (if_neg hk)⟩
  · rw [fmKeyOn_none (keyOnChannel_none val hnone)]
    rfl
  · unfold Sends
    rw [fmKeyOn_ser]
    exact (writeFmRegister_emits hready 0 0x28 val).events

/-! ### The DAC registers -/

/-- The state between the two writes of the DAC enable register (42_cmd_chip_writes.md R197). -/
def dacEnabled (val : Byte) (s : State) : State :=
  State.writeFmRegister 0 0x2B val
    (State.setDac 5 (val.getLsbD 7) { s with trk := { s.trk with dacEn := val.getLsbD 7 } })

theorem fmDacEnable_eq (val : Byte) (s : State) :
    fmDacEnable val s = (dacEnabled val s).writeFmRegister 1 0xB6 ((dacEnabled val s).fmPanOut 5 false) := rfl

theorem fmDacEnable_fmPanOut (val : Byte) (s : State) :
    (fmDacEnable val s).fmPanOut 5 false = (dacEnabled val s).fmPanOut 5 false := by
  rw [fmDacEnable_eq]
  exact fmPanOut_ser (dacEnabled val s) _ 5 false

/-- The enable write, then the pan of FM index 5 under the new `DACEN` (42_cmd_chip_writes.md R197). -/
theorem fmDacEnable_emits {s : State} (h : BusReady s) (val : Byte) :
    Emits s.cfg.rev s.ser (fmDacEnable val s).ser 14
      (fmEvents 0 0x2B val ++ fmEvents 1 0xB6 ((fmDacEnable val s).fmPanOut 5 false)) := by
  have henable : Emits s.cfg.rev s.ser (dacEnabled val s).ser 7 (fmEvents 0 0x2B val) :=
    Ser.writeFmRegister_emits h.1 h.2 0 0x2B val
  rw [fmDacEnable_fmPanOut, fmDacEnable_eq]
  exact henable.trans (writeFmRegister_emits (s := dacEnabled val s) ⟨h.1, henable.ready⟩ 1 0xB6 _)

theorem fmDacEnable_activityAt (val : Byte) (s : State) (k : Fin 10) :
    (fmDacEnable val s).activityAt k =
      if k = 5 then { s.activityAt 5 with dac := val.getLsbD 7 } else s.activityAt k :=
  activityAt_setDac s 5 k _

/-- Settles O29. -/
theorem fmwDacEnable : Obligations.FmwDacEnable := by
  unfold Obligations.FmwDacEnable
  intro s val hready
  refine ⟨_, exec_eq_after _ _, ?_⟩
  rw [after_fmw0_dacEnable]
  refine ⟨rfl, ?_, fun k hk => ?_, (fmDacEnable_emits hready val).events, rfl⟩
  · rw [fmDacEnable_activityAt, if_pos rfl]
  · rw [fmDacEnable_activityAt, if_neg hk]

/-- Settles O30: the two counters in naturals. -/
theorem fmwDacData : Obligations.FmwDacData := by
  unfold Obligations.FmwDacData
  intro s val hready
  refine ⟨_, exec_eq_after _ _, ?_⟩
  rw [after_fmw0_dacData]
  refine ⟨?_, BitVec.toNat_add _ _, rfl, (writeFmRegister_emits hready 0 0x2A val).events, rfl⟩
  rw [← dacDeviation_toNat]
  exact BitVec.toNat_add _ _

/-! ### Which bytes go out changed -/

/-- Everything an FM write can send: the pan of its channel, the DAC enable pair, or its own byte
(42_cmd_chip_writes.md R192). -/
theorem fmWrite_cases (port : Bool) (reg val : Byte) (s : State) :
    (∃ i, 0xB4 ≤ reg ∧ reg ≤ 0xB6 ∧ fmWrite port reg val s = fmPan port reg val i s) ∨
    (port = false ∧ reg = 0x2B ∧ fmWrite port reg val s = fmDacEnable val s) ∨
    (¬(0xB4 ≤ reg ∧ reg ≤ 0xB6) ∧
      (fmWrite port reg val s).ser = s.ser.writeFmRegister s.cfg (portByte port) reg val) := by
  obtain ⟨hkeyOn, hdacData, hdacEn⟩ := fmClass_port0 port reg
  have hplain (hnot : ∀ i, fmClass port reg ≠ .pan i) : ¬(0xB4 ≤ reg ∧ reg ≤ 0xB6) := fun hrange =>
    (fmClass_of_panRange port reg hrange.1 hrange.2).elim hnot
  cases h : fmClass port reg with
  | pan i =>
    obtain ⟨hlow, hhigh⟩ := fmClass_eq_pan port reg i h
    exact .inl ⟨i, hlow, hhigh, fmWrite_pan h val s⟩
  | dacEn =>
    obtain ⟨rfl, rfl⟩ := hdacEn h
    exact .inr (.inl ⟨rfl, rfl, rfl⟩)
  | alg i => exact .inr (.inr ⟨hplain (by simp [h]), by rw [fmWrite_alg h]; rfl⟩)
  | chParam i => exact .inr (.inr ⟨hplain (by simp [h]), by rw [fmWrite_chParam h]; rfl⟩)
  | other => exact .inr (.inr ⟨hplain (by simp [h]), by rw [fmWrite_other h]; rfl⟩)
  | keyOn =>
    obtain ⟨rfl, rfl⟩ := hkeyOn h
    exact .inr (.inr ⟨by decide, fmKeyOn_ser val s⟩)
  | dacData =>
    obtain ⟨rfl, rfl⟩ := hdacData h
    exact .inr (.inr ⟨by decide, rfl⟩)

set_option maxRecDepth 10000 in
/-- Silencing and the mono step keep the low six bits (41_mix_engine.md R160, R162). -/
theorem silent_mono_low : ∀ (mono : Bool) (p : Byte),
    monoPan mono p &&& 0x3F = p &&& 0x3F ∧ monoPan mono (p &&& 0x3F) &&& 0x3F = p &&& 0x3F := by
  decide

/-- The multiplexer changes bits 7:6 of a pan byte only (42_cmd_chip_writes.md R192). -/
theorem fmPanOut_low (s : State) (i : Fin 6) (force : Bool) :
    s.fmPanOut i force &&& 0x3F = s.fmPanAt i &&& 0x3F := by
  rw [fmPanOut_eq]
  split
  · exact (silent_mono_low _ _).2
  · exact (silent_mono_low _ _).1

theorem fmPan_fmPanAt (port : Bool) (reg val : Byte) (i : Fin 6) (s : State) :
    (fmPan port reg val i s).fmPanAt i = val := by
  simp [fmPan]

/-- Settles O33: the three cases of `fmWrite_cases`. -/
theorem onlyPanValuesDiffer : Obligations.OnlyPanValuesDiffer := by
  unfold Obligations.OnlyPanValuesDiffer
  intro s port reg val hready
  rw [exec_fmw]
  obtain ⟨i, hlow, hhigh, h⟩ | ⟨rfl, rfl, h⟩ | ⟨hnotPan, hser⟩ := fmWrite_cases port reg val s
  · have hsends := fmPan_sends hready port reg val i
    rw [← List.append_nil (fmEvents _ _ _)] at hsends
    rw [h]
    refine ⟨_, _, [], rfl, hsends, fun hnot => absurd ⟨hlow, hhigh⟩ hnot, ?_, .inl rfl⟩
    rw [fmPanOut_low, fmPan_fmPanAt]
  · rw [h]
    exact ⟨_, val, _, rfl, (fmDacEnable_emits hready val).events, fun _ => rfl, rfl, .inr ⟨rfl, rfl, _, rfl⟩⟩
  · refine ⟨_, val, [], rfl, ?_, fun _ => rfl, rfl, .inl rfl⟩
    unfold Sends
    rw [hser, List.append_nil]
    exact (writeFmRegister_emits hready (portByte port) reg val).events

end Sys2Proof.Machine
end

section
/-! SUPPORT. The muting pass (41_mix_engine.md R166 to R170): that it depends on caches and controls alone, and the
services, END and waits that send it or the chip reset. -/

namespace Sys2Proof.Machine

open Host

/-! ### What the multiplexer reads -/

/-- `FmPanOut` reads the caches, the controls, `DACEN` and `FWSEEN` (41_mix_engine.md R167). -/
theorem fmPanOut_congr {s t : State} (hmix : t.mix = s.mix) (hctl : t.ctl = s.ctl)
    (hdac : t.trk.dacEn = s.trk.dacEn) (hseen : t.clk.fwSeen = s.clk.fwSeen) (i : Fin 6) (force : Bool) :
    t.fmPanOut i force = s.fmPanOut i force := by
  unfold State.fmPanOut State.fmPanAt State.armed State.fmMaskBit
  rw [hmix, hctl, hdac, hseen]

/-- `PsgAttOut` reads the caches, the controls and `FWSEEN` (41_mix_engine.md R167). -/
theorem psgAttOut_congr {s t : State} (hmix : t.mix = s.mix) (hctl : t.ctl = s.ctl)
    (hseen : t.clk.fwSeen = s.clk.fwSeen) (c : BitVec 2) (force : Bool) :
    t.psgAttOut c force = s.psgAttOut c force := by
  unfold State.psgAttOut State.psgAttAt State.armed
  rw [hmix, hctl, hseen]

theorem updateMutingEvents_congr {s t : State} (hmix : t.mix = s.mix) (hctl : t.ctl = s.ctl)
    (hdac : t.trk.dacEn = s.trk.dacEn) (hseen : t.clk.fwSeen = s.clk.fwSeen) :
    updateMutingEvents t = updateMutingEvents s := by
  unfold updateMutingEvents
  congr 1
  · funext i
    exact fmPanOut_congr hmix hctl hdac hseen i false
  · funext c
    exact psgAttOut_congr hmix hctl hseen c false

set_option maxRecDepth 10000 in
/-- The mono step leaves a silent pan byte silent (41_mix_engine.md R162). -/
theorem monoPan_silent : ∀ (mono : Bool) (p : Byte), monoPan mono (p &&& 0x3F) = p &&& 0x3F := by
  decide

theorem fmPanOut_silent {s : State} {force : Bool} (h : force = true ∨ s.armed = true) (i : Fin 6) :
    s.fmPanOut i force = s.fmPanAt i &&& 0x3F := by
  rw [fmPanOut_eq, if_pos (h.imp_right .inl), monoPan_silent]

theorem psgAttOut_silent {s : State} {force : Bool} (h : force = true ∨ s.armed = true) (c : BitVec 2) :
    s.psgAttOut c force = s.psgAttAt c ||| 0x0F := by
  rw [psgAttOut_eq, if_pos (h.imp_right .inl)]

/-- Under controls that pass every channel, the multiplexer answers the caches (41_mix_engine.md R170). -/
theorem outputs_of_open {s : State} (hfm : s.ctl.fmMask = 0x7F) (hpsg : s.ctl.psgMask = 0xF)
    (hmono : s.ctl.forceMono = false) (harmed : s.armed = false) :
    (∀ i, s.fmPanOut i false = s.fmPanAt i) ∧ ∀ c, s.psgAttOut c false = s.psgAttAt c := by
  have hfmBits : ∀ k : Fin 7, (0x7F : BitVec 7).getLsbD k.val = true := by decide
  have hpsgBits : ∀ c : BitVec 2, (0xF : BitVec 4).getLsbD c.toNat = true := by decide
  refine ⟨fun i => ?_, fun c => ?_⟩
  · have hbit : s.fmMaskBit i = true := by
      unfold State.fmMaskBit
      split
      · exact hfm ▸ hfmBits 6
      · exact hfm ▸ hfmBits ⟨i.val, by omega⟩
    simp [fmPanOut_eq, hbit, harmed, hmono, monoPan]
  · rw [psgAttOut_eq, hpsg, hpsgBits, harmed]
    rfl

/-! ### The frames of a pass do not depend on the latch -/

/-- Control bytes that agree on every signal and on the unused bits are equal (40_bus_serializer.md R132, R134). -/
theorem ctrl_ext {r : RevMap} {c d : Byte} (hsig : ∀ S, sigOf r S c = sigOf r S d)
    (hunused : c &&& ~~~ usedMask r = d &&& ~~~ usedMask r) : c = d := by
  refine BitVec.eq_of_getLsbD_eq fun k hk => ?_
  cases hused : (usedMask r).getLsbD k with
  | false =>
    have hbit := congrArg (BitVec.getLsbD · k) hunused
    simpa only [BitVec.getLsbD_and, BitVec.getLsbD_not, hused, hk, decide_true, Bool.not_false, Bool.and_true]
      using hbit
  | true =>
    have hsome : ∃ S, (r.bit S).val = k := by
      by_contra hnone
      have hclear (S : Signal) : (sigMask r S).getLsbD k = false := by
        have hne : (r.bit S).val ≠ k := fun e => hnone ⟨S, e⟩
        simp only [sigMask, BitVec.getLsbD_shiftLeft, BitVec.getLsbD_one, Bool.and_eq_false_iff,
          Bool.not_eq_false', decide_eq_true_eq, decide_eq_false_iff_not]
        omega
      simp [usedMask, hclear] at hused
    obtain ⟨S, rfl⟩ := hsome
    exact hsig S

/-- An FM write sets every signal that an idle latch leaves open, so its frames do not depend on it
(40_bus_serializer.md R140, R143). -/
theorem fmFrames_congr {r : RevMap} (h : r.Wf) {c d : Byte} (hc : CtrlIdle r c) (hd : CtrlIdle r d)
    (port reg val : Byte) : fmFrames r c port reg val = fmFrames r d port reg val := by
  obtain ⟨hc1, hc2, hc3, hc4, hc5⟩ := hc
  obtain ⟨hd1, hd2, hd3, hd4, hd5⟩ := hd
  have hfirst : setCtrl r .fmCs false (setCtrl r .a0 false (setCtrl r .a1 (port.getLsbD 0) c)) =
      setCtrl r .fmCs false (setCtrl r .a0 false (setCtrl r .a1 (port.getLsbD 0) d)) := by
    refine ctrl_ext (r := r) (fun S => ?_) ?_
    · cases S <;> simp [sigOf_setCtrl h, *]
    · simp only [setCtrl_unused, hc5, hd5]
  simp only [fmFrames, hfirst]

/-- Two serializers send the same frames and end with equal latches. -/
def Lockstep (x y x' y' : Ser) : Prop :=
  x'.latch = y'.latch ∧ ∃ fs, x'.bus = x.bus ++ fs ∧ y'.bus = y.bus ++ fs

theorem Lockstep.trans {x y x' y' x'' y'' : Ser} (h1 : Lockstep x y x' y') (h2 : Lockstep x' y' x'' y'') :
    Lockstep x y x'' y'' := by
  obtain ⟨-, fs, hx, hy⟩ := h1
  obtain ⟨hlatch, gs, hx', hy'⟩ := h2
  exact ⟨hlatch, fs ++ gs, by rw [hx', hx, List.append_assoc], by rw [hy', hy, List.append_assoc]⟩

theorem lockstep_send (x y : Ser) {fs : List Frame} {f : Frame} (h : fs.getLast? = some f) :
    Lockstep x y (x.send fs) (y.send fs) :=
  ⟨by simp [Ser.send, latchAfter, h], fs, rfl, rfl⟩

theorem writePsgByte_lockstep {cfg cfg' : Cfg} (hrev : cfg'.rev = cfg.rev) {x y : Ser} (h : x.latch = y.latch)
    (v : Byte) : Lockstep x y (x.writePsgByte cfg v) (y.writePsgByte cfg' v) := by
  rw [Ser.writePsgByte_eq, Ser.writePsgByte_eq, hrev, h]
  exact lockstep_send x y rfl

theorem writeFmRegister_lockstep {cfg cfg' : Cfg} (hw : cfg.rev.Wf) (hrev : cfg'.rev = cfg.rev) {x y : Ser}
    (hx : CtrlIdle cfg.rev x.latch.ctrl) (hy : CtrlIdle cfg.rev y.latch.ctrl) (port reg val : Byte) :
    Lockstep x y (x.writeFmRegister cfg port reg val) (y.writeFmRegister cfg' port reg val) := by
  rw [Ser.writeFmRegister_eq, Ser.writeFmRegister_eq, hrev, fmFrames_congr hw hx hy]
  exact lockstep_send x y rfl

/-- A run of PSG writes from equal latches. -/
theorem psgWrites_lockstep {cfg cfg' : Cfg} (hrev : cfg'.rev = cfg.rev) (val : BitVec 2 → Byte)
    (cs : List (BitVec 2)) {x y : Ser} (h : x.latch = y.latch) :
    Lockstep x y (cs.foldl (fun z c => z.writePsgByte cfg (val c)) x)
      (cs.foldl (fun z c => z.writePsgByte cfg' (val c)) y) := by
  induction cs generalizing x y with
  | nil => exact ⟨h, [], by simp⟩
  | cons c rest ih =>
    have hfirst := writePsgByte_lockstep hrev h (val c)
    exact hfirst.trans (ih hfirst.1)

/-- A run of FM writes, at least one, from idle latches. -/
theorem fmWrites_lockstep {cfg cfg' : Cfg} (hw : cfg.rev.Wf) (hrev : cfg'.rev = cfg.rev)
    (port reg val : Fin 6 → Byte) (is : List (Fin 6)) (hne : is ≠ []) {x y : Ser} (hx : SerReady cfg.rev x)
    (hy : SerReady cfg.rev y) :
    Lockstep x y (is.foldl (fun z i => z.writeFmRegister cfg (port i) (reg i) (val i)) x)
      (is.foldl (fun z i => z.writeFmRegister cfg' (port i) (reg i) (val i)) y) := by
  induction is generalizing x y with
  | nil => exact absurd rfl hne
  | cons i rest ih =>
    have hfirst := writeFmRegister_lockstep hw hrev hx.1 hy.1 (port i) (reg i) (val i)
    by_cases hrest : rest = []
    · subst hrest
      exact hfirst
    · have hx' := (Ser.writeFmRegister_emits hw hx (port i) (reg i) (val i)).ready
      have hy' : SerReady cfg.rev (y.writeFmRegister cfg' (port i) (reg i) (val i)) := by
        rw [← hrev] at hw hy ⊢
        exact (Ser.writeFmRegister_emits hw hy (port i) (reg i) (val i)).ready
      exact hfirst.trans (ih hrest hx' hy')

theorem emitMuting_lockstep {cfg cfg' : Cfg} (hw : cfg.rev.Wf) (hrev : cfg'.rev = cfg.rev) (fm : Fin 6 → Byte)
    (psg : BitVec 2 → Byte) {x y : Ser} (hx : SerReady cfg.rev x) (hy : SerReady cfg.rev y) :
    Lockstep x y (x.emitMuting cfg fm psg) (y.emitMuting cfg' fm psg) := by
  have hfm := fmWrites_lockstep hw hrev fmPanPort fmPanReg fm [0, 1, 2, 3, 4, 5] (by decide) hx hy
  exact hfm.trans (psgWrites_lockstep hrev psg [0, 1, 2, 3] hfm.1)

/-- What the service of Update-muting sends (60_exceptions.md R323). -/
theorem after_updmute_ser (s : State) :
    (after .updmute s).ser = s.ser.emitMuting s.cfg (fun i => s.fmPanOut i false) (fun c => s.psgAttOut c false) :=
  State.emitMuting_ser { s with req := s.req.put .updMute false } false

/-- Settles O35: the two passes send equal bytes, so they stay in step from their first frame on. -/
theorem mutingPassIsAFunction : Obligations.MutingPassIsAFunction := by
  unfold Obligations.MutingPassIsAFunction
  intro s r hs hr hrev hmix hctl hdac hseen
  have hfm (i : Fin 6) : r.fmPanOut i false = s.fmPanOut i false :=
    fmPanOut_congr hmix.symm hctl.symm hdac.symm hseen.symm i false
  have hpsg (c : BitVec 2) : r.psgAttOut c false = s.psgAttOut c false :=
    psgAttOut_congr hmix.symm hctl.symm hseen.symm c false
  have hpass := after_updmute_ser r
  simp only [hfm, hpsg] at hpass
  have hstep := emitMuting_lockstep hs.1 hrev.symm (fun i => s.fmPanOut i false) (fun c => s.psgAttOut c false) hs.2
    (hrev ▸ hr.2)
  rw [← after_updmute_ser s, ← hpass] at hstep
  obtain ⟨hlatch, fs, hbus, hbus'⟩ := hstep
  have hlen : fs.length = 54 := by
    obtain ⟨gs, hgs, hlen, -⟩ := (emitMuting_emits hs false).bus
    rw [after_updmute_ser] at hbus
    rw [← List.append_cancel_left (hgs.symm.trans hbus)]
    exact hlen
  exact ⟨fs, _, _, hlen, exec_eq_after _ _, exec_eq_after _ _, hbus, hbus', hlatch⟩

/-! ### The services and END -/

/-- The bus of what was emitted is longer by the number of frames. -/
theorem Emits.bus_length {r : RevMap} {x y : Ser} {n : Nat} {evs : List ChipEvent} (h : Emits r x y n evs) :
    y.bus.length = x.bus.length + n := by
  obtain ⟨fs, hbus, hlen, -⟩ := h.bus
  rw [hbus, List.length_append, hlen]

theorem resetChips_emits {s : State} (h : BusReady s) :
    Emits s.cfg.rev s.ser s.resetChips.ser 14 resetEvents :=
  Ser.resetChips_emits h.1 h.2

/-- An Update-muting pass on a ready machine (41_mix_engine.md R166). -/
theorem updateMuting_emits {s : State} (h : BusReady s) :
    Emits s.cfg.rev s.ser s.updateMuting.ser 54 (updateMutingEvents s) :=
  emitMuting_emits h false

/-- `ForceSilent()` closes every channel whatever the controls (41_mix_engine.md R166, R169). -/
theorem forceSilent_emits {s : State} (h : BusReady s) :
    Emits s.cfg.rev s.ser s.forceSilent.ser 54
      (mutingEvents (fun i => s.fmPanAt i &&& 0x3F) (fun c => s.psgAttAt c ||| 0x0F)) := by
  have hpass := emitMuting_emits h true
  simp only [fmPanOut_silent (.inl rfl), psgAttOut_silent (.inl rfl)] at hpass
  exact hpass

/-- Settles O47. -/
theorem endOfStream : Obligations.EndOfStream := by
  unfold Obligations.EndOfStream
  intro s hready
  have hreset := resetChips_emits hready
  exact ⟨_, exec_eq_after _ _, hreset.events, hreset.bus_length, rfl⟩

/-- Settles O48. -/
theorem startService : Obligations.StartService := fun _ => rfl

/-- Settles O49. -/
theorem updateMutingService : Obligations.UpdateMutingService := by
  unfold Obligations.UpdateMutingService
  intro s hready
  have hpass := updateMuting_emits hready
  exact ⟨_, exec_eq_after _ _, hpass.events, hpass.bus_length, rfl⟩

/-- Settles O50. -/
theorem resetService : Obligations.ResetService := by
  unfold Obligations.ResetService
  intro s hready
  have hreset := resetChips_emits hready
  exact ⟨_, exec_eq_after _ _, hreset.events, hreset.bus_length, rfl⟩

/-- Settles O51. -/
theorem stopService : Obligations.StopService := by
  unfold Obligations.StopService
  intro s hready
  have hpass := forceSilent_emits hready
  exact ⟨_, exec_eq_after _ _, hpass.events, hpass.bus_length, rfl⟩

/-- The product of the re-baseline fits 64 bits (46_scheduler.md R291). -/
theorem pausedCycles_toNat {s : State} (h : s.cfg.Wf) :
    (pausedCycles s).toNat = s.clk.paused.toNat * s.cfg.cps := by
  obtain ⟨-, -, hclock, -⟩ := h
  have hcps : s.cfg.cps < 2 ^ 32 := (Nat.div_le_self _ _).trans_lt hclock
  have hfits : s.clk.paused.toNat * s.cfg.cps < 2 ^ 64 :=
    (Nat.mul_lt_mul'' s.clk.paused.isLt hcps).trans_eq (by norm_num)
  rw [pausedCycles, BitVec.toNat_ofNat, Nat.mod_eq_of_lt hfits]

/-- Settles O52: one pass, and the product that `pausedCycles_toNat` says fits. -/
theorem resumeService : Obligations.ResumeService := by
  unfold Obligations.ResumeService
  intro s hready hwf
  have hpass := updateMuting_emits hready
  exact ⟨_, exec_eq_after _ _, hpass.events, hpass.bus_length, pausedCycles_toNat hwf, rfl⟩

/-- Settles O53: Resume's pass reads what the Stop kept. -/
theorem stopResumeRoundTrip : Obligations.StopResumeRoundTrip := by
  unfold Obligations.StopResumeRoundTrip
  intro s r hready
  refine ⟨after .stop s, exec_eq_after _ _, fun hr hmix hctl hdac hseen hpaused => ?_⟩
  refine ⟨after .resume r, exec_eq_after _ _, hpaused, hmix, ?_, rfl⟩
  have hevents : updateMutingEvents r = updateMutingEvents s := updateMutingEvents_congr hmix hctl hdac hseen
  rw [← hevents]
  exact (updateMuting_emits hr).events

theorem after_updmute_mix (s : State) : (after .updmute s).mix = s.mix := rfl

theorem after_updmute_cfg (s : State) : (after .updmute s).cfg = s.cfg := rfl

/-- Settles O36: the second pass reads open controls and the caches that the first one kept. -/
theorem unmutingRestoresCaches : Obligations.UnmutingRestoresCaches := by
  unfold Obligations.UnmutingRestoresCaches
  intro s c hready hfm hpsg hmono htrim
  refine ⟨after .updmute s, after .updmute { after .updmute s with ctl := c }, exec_eq_after _ _, exec_eq_after _ _,
    ?_, (after_updmute_mix _).trans (after_updmute_mix s)⟩
  have hready' : BusReady { after .updmute s with ctl := c } := by
    unfold BusReady
    rw [after_updmute_cfg, after_updmute_ser]
    exact ⟨hready.1, (updateMuting_emits hready).ready⟩
  have hunarmed : State.armed { after .updmute s with ctl := c } = false := by
    refine Bool.eq_false_iff.2 fun harmed => ?_
    obtain ⟨hen, hunseen⟩ := (armed_iff _).1 harmed
    obtain hoff | hseen := htrim
    · cases hoff.symm.trans hen
    · cases hseen.symm.trans hunseen
  obtain ⟨hpans, hatts⟩ := outputs_of_open (s := { after .updmute s with ctl := c }) hfm hpsg hmono hunarmed
  have hpass := (updateMuting_emits hready').events
  rw [updateMutingEvents, funext hpans, funext hatts] at hpass
  exact hpass

/-! ### Waits -/

/-- A pure wait command runs `Wait` of its amount (43_cmd_waits.md R221 to R224). -/
theorem after_waitOf {i : Instr} {W : U32} (h : WaitOf i W) (s : State) : after i s = waitSamples W s := by
  obtain ⟨n, rfl, rfl⟩ | ⟨rfl, rfl⟩ | ⟨rfl, rfl⟩ | ⟨n, -, -, rfl, rfl⟩ := h <;> rfl

theorem waitSamples_later {W : U32} {s : State} (h : W = 0 ∨ s.clk.fwSeen = true) :
    waitSamples W s = { s with clk := { s.clk with nextDue := s.clk.nextDue + W } } := by
  obtain ⟨-, heq⟩ | ⟨hne, hunseen, -⟩ := waitSamples_cases W s
  · exact heq
  · obtain hzero | hseen := h
    · exact absurd hzero hne
    · cases hunseen.symm.trans hseen

theorem waitSamples_first {W : U32} {s : State} (hW : W ≠ 0) (hseen : s.clk.fwSeen = false) :
    waitSamples W s = State.setFirstWait { s with clk := { s.clk with nextDue := s.clk.nextDue + W } } := by
  obtain ⟨hlater, -⟩ | ⟨-, -, heq⟩ := waitSamples_cases W s
  · obtain hzero | hseen' := hlater
    · exact absurd hzero hW
    · cases hseen.symm.trans hseen'
  · exact heq

/-- The first nonzero wait: what it writes (41_mix_engine.md R168). -/
theorem waitSamples_first_frame {W : U32} {s : State} (hW : W ≠ 0) (hseen : s.clk.fwSeen = false) :
    waitSamples W s =
      { s with
        clk := firstWaitClock s W
        act := rebasedStream s.act 0
        ser := (waitSamples W s).ser } := by
  rw [waitSamples_first hW hseen]
  rfl

/-- The first nonzero wait: the pass it sends, read in the state it leaves (41_mix_engine.md R168). -/
theorem waitSamples_first_emits {W : U32} {s : State} (hW : W ≠ 0) (hseen : s.clk.fwSeen = false)
    (h : BusReady s) :
    Emits s.cfg.rev s.ser (waitSamples W s).ser 54 (updateMutingEvents (waitSamples W s)) := by
  rw [waitSamples_first hW hseen]
  exact updateMuting_emits
    (s :=
      { s with
        clk := firstWaitClock s W
        act := rebasedStream s.act 0 }) h

/-- Settles O38. -/
theorem laterWaits : Obligations.LaterWaits := by
  unfold Obligations.LaterWaits
  intro i W s hwait hlater
  rw [exec_eq_after, after_waitOf hwait, waitSamples_later hlater]

/-- Settles O39: the frame and the pass of the first nonzero wait; `FWSEEN` disarms mitigation. -/
theorem firstWait : Obligations.FirstWait := by
  unfold Obligations.FirstWait
  intro i W s hwait hW hseen hready
  have hframe := waitSamples_first_frame hW hseen
  have hpass := waitSamples_first_emits hW hseen hready
  have hclk : (waitSamples W s).clk = firstWaitClock s W := by rw [hframe]
  have hact : (waitSamples W s).act = rebasedStream s.act 0 := by rw [hframe]
  have hunarmed : (waitSamples W s).armed = false := by
    rw [State.armed, hclk]
    exact Bool.and_false _
  refine ⟨_, exec_eq_after _ _, ?_⟩
  rw [after_waitOf hwait]
  refine ⟨hclk, hact, hunarmed, hpass.events, hpass.bus_length, ?_⟩
  rw [hclk, hact]
  exact hframe

/-! ### DACW -/

theorem dacPop_cons {s : State} {b : Byte} {rest : List Byte} (h : s.pcmq = b :: rest) :
    dacPop s =
      State.writeFmRegister 0 0x2A b { s with pcmq := rest, status := { s.status with pcmUnderrun := false } } := by
  obtain ⟨b', rest', hq, heq⟩ | ⟨hq, -⟩ := dacPop_cases s
  · cases h.symm.trans hq
    exact heq
  · cases h.symm.trans hq

theorem dacPop_nil {s : State} (h : s.pcmq = []) :
    dacPop s =
      { s with
        status := { s.status with pcmUnderrun := true }
        log := s.log ++ [{ code := 2, info := 0 }] } := by
  obtain ⟨b', rest', hq, -⟩ | ⟨-, heq⟩ := dacPop_cases s
  · cases h.symm.trans hq
  · exact heq

/-- The byte of a DACW goes to the DAC data register (43_cmd_waits.md R225). -/
theorem dacPop_cons_emits {s : State} {b : Byte} {rest : List Byte} (h : s.pcmq = b :: rest) (hready : BusReady s) :
    Emits s.cfg.rev s.ser (dacPop s).ser 7 (fmEvents 0 0x2A b) := by
  rw [dacPop_cons h]
  exact Ser.writeFmRegister_emits hready.1 hready.2 0 0x2A b

theorem dacwAmount_ne_zero {n : BitVec 4} (h : n ≠ 0) : n.setWidth 32 ≠ (0 : U32) := by
  revert n; decide

theorem dacwAmount_later {n : BitVec 4} {s : State} (h : n = 0 ∨ s.clk.fwSeen = true) :
    n.setWidth 32 = (0 : U32) ∨ s.clk.fwSeen = true :=
  h.imp_left fun hn => by rw [hn]; rfl

/-- Settles O40: the DAC write of each queue, then the later or the first wait. -/
theorem dacwWritesThenWaits : Obligations.DacwWritesThenWaits := by
  unfold Obligations.DacwWritesThenWaits
  intro n s hready
  refine ⟨fun b rest hq hlater => ?_, fun b rest hq hn hseen => ?_, fun hq hlater => ?_, fun hq hn hseen => ?_⟩
  · have hwait := waitSamples_later (s := dacPop s) (dacwAmount_later (by rw [dacPop_cons hq]; exact hlater))
    have hwrite := dacPop_cons_emits hq hready
    refine ⟨_, exec_eq_after _ _, ?_⟩
    rw [after_dacw, hwait]
    refine ⟨hwrite.events, ?_⟩
    rw [dacPop_cons hq]
    rfl
  · have hseen' : (dacPop s).clk.fwSeen = false := by rw [dacPop_cons hq]; exact hseen
    have hwrite := dacPop_cons_emits hq hready
    have hready' : BusReady (dacPop s) := by
      rw [dacPop_cons hq] at hwrite ⊢
      exact ⟨hready.1, hwrite.ready⟩
    have hpass := waitSamples_first_emits (dacwAmount_ne_zero hn) hseen' hready'
    have hcfg : (dacPop s).cfg = s.cfg := by rw [dacPop_frame]
    rw [hcfg] at hpass
    refine ⟨_, exec_eq_after _ _, ?_⟩
    rw [after_dacw]
    refine ⟨(hwrite.trans hpass).events, ?_⟩
    rw [waitSamples_first_frame (dacwAmount_ne_zero hn) hseen', dacPop_cons hq]
    rfl
  · have hwait := waitSamples_later (s := dacPop s) (dacwAmount_later (by rw [dacPop_nil hq]; exact hlater))
    rw [exec_eq_after, after_dacw, hwait, dacPop_nil hq]
  · have hseen' : (dacPop s).clk.fwSeen = false := by rw [dacPop_nil hq]; exact hseen
    have hready' : BusReady (dacPop s) := by rw [dacPop_nil hq]; exact hready
    have hpass := waitSamples_first_emits (dacwAmount_ne_zero hn) hseen' hready'
    refine ⟨_, exec_eq_after _ _, ?_⟩
    rw [after_dacw]
    refine ⟨?_, ?_⟩
    · rw [dacPop_nil hq] at hpass ⊢
      exact hpass.events
    · rw [waitSamples_first_frame (dacwAmount_ne_zero hn) hseen', dacPop_nil hq]
      rfl

end Sys2Proof.Machine
end

section
/-! SUPPORT. Streams (44_cmd_dac_stream.md R245 to R253): what a start, a stop and a sent byte do to each slot, when
the DAC tick sends one, and the statements about them. -/

namespace Sys2Proof.Machine

open Host

/-- Settles O42: the two branches of `streamFreq`. -/
theorem streamRate : Obligations.StreamRate := by
  unfold Obligations.StreamRate
  intro sid f s
  rw [exec_eq_after, after_strfreq, streamFreq]
  split <;> rfl

/-! ### Stop -/

theorem streamStop_inactive {s : State} (h : s.act.active = false) : streamStop s = s := by
  simp [streamStop, h]

theorem streamStop_active {s : State} (h : s.act.active = true) :
    streamStop s = State.freeSlot s.act.slot { s with act := { s.act with active := false } } := by
  simp [streamStop, h]

/-- What a slot reads after one slot was freed. -/
theorem freeSlot_getElem? {s : State} {k : Nat} {x : Slot} (hx : s.slots[k]? = some x) (j : Nat) :
    (s.freeSlot j).slots[k]? = some (if k = j then { x with free := true } else x) :=
  State.modifySlot_getElem? hx j fun y => { y with free := true }

/-! ### Start -/

/-- A start may free a slot, for a skipped sequence or as the replaced stream's, and may restart its count; it
changes nothing else of a slot (44_cmd_dac_stream.md R249). -/
theorem streamStart_getElem? {s : State} {k : Nat} {x : Slot} (hx : s.slots[k]? = some x) :
    ∃ replaced count,
      (streamStart s).slots[k]? =
        some
          { x with
            free := x.free || decide (s.lastSeq < x.sequence ∧ x.sequence < s.seq + 1) || replaced
            playedCount := count } ∧
      (replaced = true → s.act.active = true ∧ s.act.slot = k) := by
  cases hfind : findSlot { s with seq := s.seq + 1 } with
  | none =>
    refine ⟨false, x.playedCount, ?_, nofun⟩
    rw [streamStart_of_findSlot_none hfind, Bool.or_false]
    exact retireSkipped_getElem? (s := { s with seq := s.seq + 1 }) hx
  | some m =>
    refine ⟨s.act.active && decide (k = s.act.slot), if k = m then 0 else x.playedCount, ?_, fun h => ?_⟩
    · rw [streamStart_of_findSlot_some hfind]
      exact activateSlot_getElem? (freeReplaced_retireSkipped_getElem? (s := { s with seq := s.seq + 1 }) hx) m
    · simp only [Bool.and_eq_true, decide_eq_true_eq] at h
      exact ⟨h.1, h.2.symm⟩

theorem after_streamStart {i : Instr} (h : StreamStartForm i) (s : State) : after i s = streamStart s :=
  after_of_exec (exec_of_streamStartForm h s)

/-- Settles O45: a slot of the new or the last sequence is not strictly between the two. -/
theorem startRetiresSkippedOnly : Obligations.StartRetiresSkippedOnly := by
  unfold Obligations.StartRetiresSkippedOnly
  intro i s hform
  refine ⟨_, exec_of_streamStartForm hform s, fun k x z hx hz => ?_⟩
  obtain ⟨replaced, count, hslot, hreplaced⟩ := streamStart_getElem? hx
  cases hz.symm.trans hslot
  have hkept (hother : s.act.active = true → s.act.slot ≠ k) : replaced = false :=
    Bool.eq_false_iff.2 fun h => hother (hreplaced h).1 (hreplaced h).2
  refine ⟨fun hlow hhigh => ?_, fun hnew hother => ?_, fun hlast hother => ?_⟩
  · rw [decide_eq_true ⟨hlow, hhigh⟩, Bool.or_true, Bool.true_or]
  · simp [hnew, hkept hother]
  · simp [hlast, hkept hother]

/-! ### One byte -/

/-- The state after a stream byte was sent and counted, before the end of the stream is tested
(44_cmd_dac_stream.md R252). -/
def dacSent (b : Byte) (rest : List Byte) (s : State) : State :=
  ({ ((s.modifySlot s.act.slot fun x => { x with queue := rest }).writeFmRegister s.act.port s.act.reg b) with
      act := { s.act with last := s.act.last + period s.cfg s.act.rate } } : State).modifySlot
    s.act.slot fun x => { x with playedCount := x.playedCount + 1 }

theorem dacEmit_eq (b : Byte) (rest : List Byte) (s : State) :
    dacEmit b rest s =
      if streamEnds (dacSent b rest s) = true then
        State.freeSlot s.act.slot
          { dacSent b rest s with act := { (dacSent b rest s).act with active := false } }
      else dacSent b rest s := rfl

theorem dacSent_getElem? {s : State} {k : Nat} {x : Slot} (hx : s.slots[k]? = some x) (b : Byte)
    (rest : List Byte) :
    (dacSent b rest s).slots[k]? =
      some (if k = s.act.slot then { x with queue := rest, playedCount := x.playedCount + 1 } else x) := by
  have hqueue := State.modifySlot_getElem? hx s.act.slot fun y => { y with queue := rest }
  have hcount := State.modifySlot_getElem? hqueue s.act.slot fun y => { y with playedCount := y.playedCount + 1 }
  refine Eq.trans hcount ?_
  by_cases hk : k = s.act.slot <;> simp [hk]

/-- The end of a bounded stream is decided by the count that includes the byte just sent (44_cmd_dac_stream.md
R252, R253). -/
theorem streamEnds_dacSent {s : State} {x : Slot} (hx : s.slots[s.act.slot]? = some x) (b : Byte)
    (rest : List Byte) :
    streamEnds (dacSent b rest s) = decide (s.act.mode = .byLength ∧ s.act.len ≤ x.playedCount + 1) := by
  have hslot : (dacSent b rest s).slotAt s.act.slot = _ := State.slotAt_of_getElem? (dacSent_getElem? hx b rest)
  have hends : streamEnds (dacSent b rest s) =
      (s.act.mode == .byLength && decide (s.act.len ≤ ((dacSent b rest s).slotAt s.act.slot).playedCount)) := rfl
  rw [hends, hslot, if_pos rfl, Bool.decide_and, beq_eq_decide]

theorem dacEmit_getElem? {s : State} {k : Nat} {x : Slot} (hx : s.slots[k]? = some x) (b : Byte)
    (rest : List Byte) :
    (dacEmit b rest s).slots[k]? =
      some
        (if k = s.act.slot then
          { x with
            queue := rest, playedCount := x.playedCount + 1, free := x.free || streamEnds (dacSent b rest s) }
         else x) := by
  have hsent := dacSent_getElem? hx b rest
  rw [dacEmit_eq]
  split
  next hends =>
    have hfree :=
      freeSlot_getElem? (s := { dacSent b rest s with act := { (dacSent b rest s).act with active := false } }) hsent
        s.act.slot
    rw [hfree, hends]
    by_cases hk : k = s.act.slot <;> simp [hk]
  next hgoes =>
    rw [hsent, Bool.eq_false_iff.2 hgoes, Bool.or_false]

theorem dacEmit_slots_length (b : Byte) (rest : List Byte) (s : State) :
    (dacEmit b rest s).slots.length = s.slots.length := by
  rw [dacEmit_eq]
  split <;> simp [dacSent]

theorem dacEmit_act (b : Byte) (rest : List Byte) (s : State) :
    (dacEmit b rest s).act =
      { s.act with
        last := s.act.last + period s.cfg s.act.rate
        active := s.act.active && !streamEnds (dacSent b rest s) } := by
  rw [dacEmit_eq]
  split
  next hends =>
    rw [hends, Bool.not_true, Bool.and_false]
    rfl
  next hgoes =>
    rw [Bool.eq_false_iff.2 hgoes, Bool.not_false, Bool.and_true]
    rfl

theorem dacEmit_ser (b : Byte) (rest : List Byte) (s : State) :
    (dacEmit b rest s).ser = s.ser.writeFmRegister s.cfg s.act.port s.act.reg b := by
  rw [dacEmit_frame]

/-- A stream byte is one FM write (44_cmd_dac_stream.md R252). -/
theorem dacEmit_emits {s : State} (h : BusReady s) (b : Byte) (rest : List Byte) :
    Emits s.cfg.rev s.ser (dacEmit b rest s).ser 7 (fmEvents s.act.port s.act.reg b) := by
  rw [dacEmit_ser]
  exact writeFmRegister_emits h s.act.port s.act.reg b

/-! ### When a byte is due -/

theorem period_toNat {cfg : Cfg} (h : cfg.clockHz < 2 ^ 32) (rate : U32) :
    (period cfg rate).toNat = max 1 (cfg.clockHz / rate.toNat) := by
  have hle : cfg.clockHz / rate.toNat ≤ cfg.clockHz := Nat.div_le_self _ _
  rw [period, BitVec.toNat_ofNat, Nat.mod_eq_of_lt]
  omega

/-- `CYC - ACT.last` does not borrow (44_cmd_dac_stream.md R257), so a byte is due by the naturals. -/
theorem streamDue_iff {s : State} (hclock : s.cfg.clockHz < 2 ^ 32) (hlast : s.act.last ≤ s.clk.cyc) :
    streamDue s = true ↔
      s.act.rate ≠ 0 ∧ max 1 (s.cfg.clockHz / s.act.rate.toNat) ≤ s.clk.cyc.toNat - s.act.last.toNat := by
  rw [← period_toNat hclock, ← BitVec.toNat_sub_of_le hlast, ← BitVec.le_def]
  simp [streamDue]

/-- A due byte's period ends at or before `CYC`, so `ACT.last` stays at or below it (44_cmd_dac_stream.md R257). -/
theorem last_add_period {s : State} (hclock : s.cfg.clockHz < 2 ^ 32) (hlast : s.act.last ≤ s.clk.cyc)
    (hdue : streamDue s = true) :
    (s.act.last + period s.cfg s.act.rate).toNat =
        s.act.last.toNat + max 1 (s.cfg.clockHz / s.act.rate.toNat) ∧
      s.act.last + period s.cfg s.act.rate ≤ s.clk.cyc := by
  obtain ⟨-, hperiod⟩ := (streamDue_iff hclock hlast).1 hdue
  have hcyc := s.clk.cyc.isLt
  rw [BitVec.le_def] at hlast ⊢
  rw [BitVec.toNat_add, period_toNat hclock, Nat.mod_eq_of_lt (by omega)]
  exact ⟨rfl, by omega⟩

/-! ### The DAC tick -/

theorem dacTick_inactive {s : State} (h : s.act.active = false) : dacTick s = s := by
  simp [dacTick, h]

theorem dacTick_empty {s : State} {x : Slot} (hact : s.act.active = true) (hx : s.slots[s.act.slot]? = some x)
    (hq : x.queue = []) :
    dacTick s = { s with log := s.log ++ [{ code := 0x13, info := BitVec.ofNat 32 s.act.slot }] } := by
  simp only [dacTick, hact, if_true, State.slotAt_of_getElem? hx, hq, Queue.pop_nil]
  rfl

theorem dacTick_cons {s : State} {x : Slot} {b : Byte} {rest : List Byte} (hact : s.act.active = true)
    (hx : s.slots[s.act.slot]? = some x) (hq : x.queue = b :: rest) :
    dacTick s = if streamDue s = true then dacEmit b rest s else s := by
  simp only [dacTick, hact, if_true, State.slotAt_of_getElem? hx, hq, Queue.pop_cons]

/-- Settles O46: one rule per case of the tick, and for a byte sent the rules of `dacEmit`. -/
theorem dacTickCases : Obligations.DacTickCases := by
  unfold Obligations.DacTickCases
  intro s hclock hready hpool hstream
  refine ⟨dacTick_inactive, fun x => dacTick_empty, ?_, ?_⟩
  · intro x b rest hact hx hq hnotDue
    have hdue : ¬ streamDue s = true := by
      rw [streamDue_iff hclock (hstream hact)]
      rintro ⟨hrate, hperiod⟩
      obtain hzero | hearly := hnotDue
      · exact hrate hzero
      · omega
    rw [dacTick_cons hact hx hq, if_neg hdue]
  · intro x b rest hact hx hq hrate hperiod
    have hdue : streamDue s = true := (streamDue_iff hclock (hstream hact)).2 ⟨hrate, hperiod⟩
    have hends := streamEnds_dacSent hx b rest
    have hact' := dacEmit_act b rest s
    refine ⟨_, _, rfl, rfl, ?_⟩
    rw [dacTick_cons hact hx hq, if_pos hdue, ← hends]
    refine ⟨(dacEmit_emits hready b rest).events, ?_, ?_, dacEmit_slots_length b rest s,
      fun k z hz => dacEmit_getElem? hz b rest, ?_⟩
    · rw [hact']
      exact (last_add_period hclock (hstream hact) hdue).1
    · rw [hact', hact, Bool.true_and]
    · rw [dacEmit_ser]
      exact dacEmit_frame b rest s

end Sys2Proof.Machine

/-! The model's function has the name `Sys2Proof.Machine.streamStop`, so the theorem stands with the one about
starts. -/

namespace Sys2Proof.Machine.Proofs

/-- Settles O43: without a stream nothing is done, with one its slot is freed. -/
theorem streamStop : Obligations.StreamStop := by
  unfold Obligations.StreamStop
  intro sid s
  rw [exec_eq_after, after_strstop]
  refine ⟨fun hinactive => by rw [streamStop_inactive hinactive], fun hactive => ?_⟩
  rw [streamStop_active hactive]
  refine ⟨_, rfl, rfl, by simp, fun k x hx => ?_, rfl⟩
  exact freeSlot_getElem? (s := { s with act := { s.act with active := false } }) hx s.act.slot

end Sys2Proof.Machine.Proofs
end

section
/-! SUPPORT. The other agents (20_memory.md R75, R96; 44_cmd_dac_stream.md R241; 60_exceptions.md R335): what each
action answers, what a list of them may change, and the words an observer reads. -/

namespace Sys2Proof.Machine

open Host

/-! ### Each operation -/

theorem onFreeSlot_absent {s : State} {k : Nat} (h : s.slots[k]? = none) (f : Slot → Slot) :
    onFreeSlot k f s = .refused .noSuchSlot := by
  simp only [onFreeSlot, h]

theorem onFreeSlot_busy {s : State} {k : Nat} {x : Slot} (hx : s.slots[k]? = some x) (hbusy : x.free = false)
    (f : Slot → Slot) : onFreeSlot k f s = .refused .slotNotOwned := by
  simp [onFreeSlot, hx, hbusy]

theorem onFreeSlot_free {s : State} {k : Nat} {x : Slot} (hx : s.slots[k]? = some x) (hfree : x.free = true)
    (f : Slot → Slot) : onFreeSlot k f s = .next { s with slots := s.slots.set k (f x) } :=
  onFreeSlot_eq_next.2 ⟨x, hx, hfree, rfl⟩

/-- The queue after `Push` (20_memory.md R75). -/
theorem Queue.push_fst (cap : Nat) (q : List Byte) (b : Byte) :
    (Queue.push cap q b).1 = if q.length < cap then q ++ [b] else q := by
  unfold Queue.push Queue.avail
  split <;> rfl

theorem pushSlot_some {s : State} {k : Nat} {x : Slot} (hx : s.slots[k]? = some x) (b : Byte) :
    applyAction (.pushSlot k b) s =
      .next { s with slots := s.slots.set k { x with queue := (Queue.push s.cfg.slotCap x.queue b).1 } } := by
  simp only [applyAction, hx, State.modifySlot_eq_set _ hx]

/-- Settles O59: the queue rule for pushes, and the three rules of `onFreeSlot`. -/
theorem loaderQueueOperations : Obligations.LoaderQueueOperations := by
  unfold Obligations.LoaderQueueOperations
  refine ⟨fun b s => ?_, fun b s => ?_, fun s => rfl, fun s => rfl, fun k s hnone => ?_, fun k x b s hx => ?_,
    fun k x s hx hbusy => ?_, fun k x s hx hfree => ?_, fun s => ?_⟩
  · simp only [applyAction, Queue.push_fst]
    split <;> rfl
  · simp only [applyAction, Queue.push_fst]
    split <;> rfl
  · exact ⟨fun b => by simp only [applyAction, hnone], onFreeSlot_absent hnone _,
      fun f => onFreeSlot_absent hnone _, onFreeSlot_absent hnone _⟩
  · rw [pushSlot_some hx, Queue.push_fst]
  · exact ⟨onFreeSlot_busy hx hbusy _, fun f => onFreeSlot_busy hx hbusy _, onFreeSlot_busy hx hbusy _⟩
  · refine ⟨onFreeSlot_free hx hfree _, fun f => ?_, onFreeSlot_free hx hfree _⟩
    rw [← hfree]
    exact onFreeSlot_free hx hfree _
  · simp only [applyAction, Bool.or_eq_true]

/-! ### What a list of actions may change -/

/-- `s` with everything that LOADER and HOST may write taken from `t` (60_exceptions.md R335). -/
def withAgents (t s : State) : State :=
  { s with
    trk := { s.trk with dacAcc := t.trk.dacAcc, dacCnt := t.trk.dacCnt }
    ctl := t.ctl
    req := t.req
    status := { s.status with resetAck := t.status.resetAck }
    slots := t.slots
    cmdq := t.cmdq
    pcmq := t.pcmq
    activity := t.activity }

/-- What the agents may do, `reinit` saying whether the pool was re-initialised (60_exceptions.md R335). -/
structure AgentsStep (reinit : Prop) (s t : State) : Prop where
  frame : t = withAgents t s
  length : t.slots.length = s.slots.length
  ack : t.status.resetAck = true → s.status.resetAck = true
  dacAcc : t.trk.dacAcc = s.trk.dacAcc ∨ t.trk.dacAcc = 0
  dacCnt : t.trk.dacCnt = s.trk.dacCnt ∨ t.trk.dacCnt = 0
  busy : ∀ (k : Nat) (x : Slot), s.slots[k]? = some x → x.free = false →
    (∃ n, t.slots[k]? = some { x with queue := x.queue ++ n }) ∨ (s.status.running = false ∧ reinit)
  activity : ∀ v, ((t.activityAt v).kon = true → (s.activityAt v).kon = true) ∧
    ((t.activityAt v).param = true → (s.activityAt v).param = true) ∧
    ((t.activityAt v).dac = true → (s.activityAt v).dac = true)
  queues : s.status.running = true → (∃ n, t.cmdq = s.cmdq ++ n) ∧ ∃ n, t.pcmq = s.pcmq ++ n

theorem AgentsStep.running {reinit : Prop} {s t : State} (h : AgentsStep reinit s t) :
    t.status.running = s.status.running := by
  rw [h.frame]
  rfl

theorem AgentsStep.refl (s : State) : AgentsStep False s s where
  frame := rfl
  length := rfl
  ack := id
  dacAcc := .inl rfl
  dacCnt := .inl rfl
  busy := fun _ _ hx _ => .inl ⟨[], by rw [List.append_nil]; exact hx⟩
  activity := fun _ => ⟨id, id, id⟩
  queues := fun _ => ⟨⟨[], (List.append_nil _).symm⟩, ⟨[], (List.append_nil _).symm⟩⟩

theorem AgentsStep.trans {p q : Prop} {s t u : State} (h1 : AgentsStep p s t) (h2 : AgentsStep q t u) :
    AgentsStep (p ∨ q) s u where
  frame := by
    refine h2.frame.trans ?_
    rw [h1.frame]
    rfl
  length := h2.length.trans h1.length
  ack := fun h => h1.ack (h2.ack h)
  dacAcc := h2.dacAcc.elim (fun e => e ▸ h1.dacAcc) .inr
  dacCnt := h2.dacCnt.elim (fun e => e ▸ h1.dacCnt) .inr
  busy := by
    intro k x hx hbusy
    obtain ⟨n, hn⟩ | ⟨hrun, hp⟩ := h1.busy k x hx hbusy
    · obtain ⟨m, hm⟩ | ⟨hrun, hq⟩ := h2.busy k _ hn hbusy
      · exact .inl ⟨n ++ m, by rw [hm, List.append_assoc]⟩
      · exact .inr ⟨h1.running ▸ hrun, .inr hq⟩
    · exact .inr ⟨hrun, .inl hp⟩
  activity := fun v =>
    ⟨fun h => (h1.activity v).1 ((h2.activity v).1 h), fun h => (h1.activity v).2.1 ((h2.activity v).2.1 h),
      fun h => (h1.activity v).2.2 ((h2.activity v).2.2 h)⟩
  queues := by
    intro hrun
    obtain ⟨⟨n, hn⟩, ⟨m, hm⟩⟩ := h1.queues hrun
    obtain ⟨⟨n', hn'⟩, ⟨m', hm'⟩⟩ := h2.queues (h1.running.trans hrun)
    exact ⟨⟨n ++ n', by rw [hn', hn, List.append_assoc]⟩, ⟨m ++ m', by rw [hm', hm, List.append_assoc]⟩⟩

theorem AgentsStep.imp {p q : Prop} {s t : State} (h : AgentsStep p s t) (hpq : p → q) : AgentsStep q s t :=
  { h with busy := fun k x hx hbusy => (h.busy k x hx hbusy).imp_right fun hr => ⟨hr.1, hpq hr.2⟩ }

/-- A step that writes the controls and the requests. -/
theorem AgentsStep.ofControls (s : State) (ctl : Controls) (req : Req) :
    AgentsStep False s { s with ctl := ctl, req := req } :=
  { AgentsStep.refl s with frame := rfl }

/-- A step that changes one slot, by appending to its queue if the slot is not free. -/
theorem AgentsStep.ofSlot {s : State} {k : Nat} {x y : Slot} (hx : s.slots[k]? = some x)
    (hy : x.free = false → ∃ n, y = { x with queue := x.queue ++ n }) :
    AgentsStep False s { s with slots := s.slots.set k y } :=
  { AgentsStep.refl s with
    frame := rfl
    length := List.length_set
    busy := by
      intro j z hz hbusy
      left
      by_cases hj : k = j
      · subst hj
        cases hx.symm.trans hz
        obtain ⟨n, rfl⟩ := hy hbusy
        have hk : k < s.slots.length := (List.getElem?_eq_some_iff.1 hx).1
        exact ⟨n, by simp [hk]⟩
      · exact ⟨[], by simp [List.getElem?_set_ne hj, hz]⟩ }

/-- A step that writes CMDQ and PCMQ, growing them while Running. -/
theorem AgentsStep.ofQueues {s : State} {cmdq pcmq : List Byte}
    (h : s.status.running = true → (∃ n, cmdq = s.cmdq ++ n) ∧ ∃ n, pcmq = s.pcmq ++ n) :
    AgentsStep False s { s with cmdq := cmdq, pcmq := pcmq } :=
  { AgentsStep.refl s with
    frame := rfl
    queues := h }

theorem Queue.push_extends (cap : Nat) (q : List Byte) (b : Byte) : ∃ n, (Queue.push cap q b).1 = q ++ n := by
  rw [Queue.push_fst]
  split
  · exact ⟨[b], rfl⟩
  · exact ⟨[], (List.append_nil q).symm⟩

theorem onFreeSlot_agentsStep {s t : State} {k : Nat} {f : Slot → Slot} (h : onFreeSlot k f s = .next t) :
    AgentsStep False s t := by
  obtain ⟨x, hx, hfree, rfl⟩ := onFreeSlot_eq_next.1 h
  exact .ofSlot hx fun hbusy => by cases hfree.symm.trans hbusy

theorem Activity.clear_le (a : Activity) (f : ActivityFlag) :
    ((a.clear f).kon = true → a.kon = true) ∧ ((a.clear f).param = true → a.param = true) ∧
      ((a.clear f).dac = true → a.dac = true) := by
  cases f
  · exact ⟨nofun, id, id⟩
  · exact ⟨id, nofun, id⟩
  · exact ⟨id, id, nofun⟩

theorem clearActivity_agentsStep (s : State) (v : Fin 10) (f : ActivityFlag) :
    AgentsStep False s { s with activity := s.activity.set v ((s.activityAt v).clear f) } :=
  { AgentsStep.refl s with
    frame := rfl
    activity := by
      intro k
      rw [activityAt_set]
      split
      next h => exact h ▸ Activity.clear_le (s.activityAt v) f
      next => exact ⟨id, id, id⟩ }

theorem reinitPool_agentsStep {s : State} (h : s.status.running = false) :
    AgentsStep True s { s with slots := s.slots.map fun x => { x with free := true } } :=
  { AgentsStep.refl s with
    frame := rfl
    length := List.length_map _
    busy := fun _ _ _ _ => .inr ⟨h, trivial⟩ }

/-- Every action of LOADER and HOST. -/
theorem applyAction_agentsStep {a : AgentAction} {s t : State} (h : applyAction a s = .next t) :
    AgentsStep (a = .reinitPool) s t := by
  have himp {t : State} (hstep : AgentsStep False s t) : AgentsStep (a = .reinitPool) s t := hstep.imp False.elim
  cases a with
  | pushCmd b =>
    cases h
    exact himp (.ofQueues fun _ => ⟨Queue.push_extends _ _ b, [], (List.append_nil _).symm⟩)
  | pushPcm b =>
    cases h
    exact himp (.ofQueues fun _ => ⟨⟨[], (List.append_nil _).symm⟩, Queue.push_extends _ _ b⟩)
  | pushSlot k b =>
    cases hx : s.slots[k]? with
    | none => simp [applyAction, hx] at h
    | some x =>
      cases (pushSlot_some hx b).symm.trans h
      obtain ⟨n, hn⟩ := Queue.push_extends s.cfg.slotCap x.queue b
      exact himp (.ofSlot hx fun _ => ⟨n, by rw [hn]⟩)
  | flushCmd =>
    simp only [applyAction] at h
    split at h
    · cases h
    next hidle =>
      cases h
      exact himp (.ofQueues fun hrun => absurd hrun hidle)
  | flushPcm =>
    simp only [applyAction] at h
    split at h
    · cases h
    next hidle =>
      cases h
      exact himp (.ofQueues fun hrun => absurd hrun hidle)
  | flushSlot k => exact himp (onFreeSlot_agentsStep h)
  | writeSlot k f => exact himp (onFreeSlot_agentsStep h)
  | publishSlot k => exact himp (onFreeSlot_agentsStep h)
  | reinitPool =>
    simp only [applyAction] at h
    split at h
    · cases h
    next hallowed =>
      cases h
      simp only [Bool.or_eq_true, not_or, Bool.not_eq_true] at hallowed
      exact (reinitPool_agentsStep hallowed.1).imp fun _ => rfl
  | setReq r => cases h; exact himp (.ofControls s _ _)
  | withdrawReq r => cases h; exact himp (.ofControls s _ _)
  | setFmMask m => cases h; exact himp (.ofControls s _ _)
  | setPsgMask m => cases h; exact himp (.ofControls s _ _)
  | setForceMono b => cases h; exact himp (.ofControls s _ _)
  | setTrimEn b => cases h; exact himp (.ofControls s _ _)
  | setFreqFix b => cases h; exact himp (.ofControls s _ _)
  | clearResetAck => cases h; exact himp { AgentsStep.refl s with frame := rfl, ack := nofun }
  | clearActivity v f => cases h; exact himp (clearActivity_agentsStep s v f)
  | zeroDacAcc => cases h; exact himp { AgentsStep.refl s with frame := rfl, dacAcc := .inr rfl }
  | zeroDacCnt => cases h; exact himp { AgentsStep.refl s with frame := rfl, dacCnt := .inr rfl }

/-- A list of actions, by induction on it. -/
theorem applyActions_agentsStep {as : List AgentAction} {s t : State} (h : applyActions as s = .next t) :
    AgentsStep (AgentAction.reinitPool ∈ as) s t := by
  induction as generalizing s with
  | nil =>
    cases h
    exact (AgentsStep.refl t).imp False.elim
  | cons a rest ih =>
    obtain ⟨u, hu, ht⟩ := andThen_eq_next.1 h
    exact ((applyAction_agentsStep hu).trans (ih ht)).imp fun hor =>
      List.mem_cons.2 (hor.imp_left Eq.symm)

/-- Settles O58. -/
theorem agentsWriteOnlyTheirs : Obligations.AgentsWriteOnlyTheirs := by
  unfold Obligations.AgentsWriteOnlyTheirs
  intro as s t h
  obtain ⟨hframe, hlength, hack, hacc, hcnt, hbusy, hactivity, hqueues⟩ := applyActions_agentsStep h
  exact ⟨hframe, hlength, hack, hacc, hcnt, hbusy, hactivity, hqueues⟩

/-! ### The words an observer reads -/

/-- Seven bits put together to a word. -/
theorem statusBits : ∀ b0 b1 b2 b3 b4 b5 b6 : Bool,
    let w : BitVec 7 := BitVec.ofBool b6 ++ BitVec.ofBool b5 ++ BitVec.ofBool b4 ++ BitVec.ofBool b3 ++
      BitVec.ofBool b2 ++ BitVec.ofBool b1 ++ BitVec.ofBool b0
    w.getLsbD 0 = b0 ∧ w.getLsbD 1 = b1 ∧ w.getLsbD 2 = b2 ∧ w.getLsbD 3 = b3 ∧ w.getLsbD 4 = b4 ∧
      w.getLsbD 5 = b5 ∧ w.getLsbD 6 = b6 := by
  decide

theorem Activity.word_getLsbD (a : Activity) :
    a.word.getLsbD 0 = a.kon ∧ a.word.getLsbD 1 = a.param ∧ a.word.getLsbD 2 = a.dac := by
  obtain ⟨kon, param, dac⟩ := a
  revert kon param dac
  decide

/-- Settles O60. -/
theorem observedWords : Obligations.ObservedWords :=
  ⟨fun _ => statusBits _ _ _ _ _ _ _, Req.word_getLsbD, Activity.word_getLsbD⟩

end Sys2Proof.Machine
end

section
/-! SUPPORT. The traffic of the serializer: the writes an instruction and a tick send, said once as a run of the
primitives, and from that the frame counts, the bus invariant and the silence under trim mitigation. -/

namespace Sys2Proof.Machine

open Host

/-! ### Runs of primitives -/

/-- `Writes cfg x y n evs`: `y` is `x` after a run of primitives that together are `n` frames with the events `evs`
(40_bus_serializer.md R144, R147). Whether `x` is ready does not matter. -/
inductive Writes (cfg : Cfg) (x : Ser) : Ser → Nat → List ChipEvent → Prop where
  | none : Writes cfg x x 0 []
  | psg {y : Ser} {n : Nat} {evs : List ChipEvent} (h : Writes cfg x y n evs) (v : Byte) :
    Writes cfg x (y.writePsgByte cfg v) (n + 3) (evs ++ [.psgByte v])
  | fm {y : Ser} {n : Nat} {evs : List ChipEvent} (h : Writes cfg x y n evs) (port reg val : Byte) :
    Writes cfg x (y.writeFmRegister cfg port reg val) (n + 7) (evs ++ fmEvents port reg val)
  | reset {y : Ser} {n : Nat} {evs : List ChipEvent} (h : Writes cfg x y n evs) :
    Writes cfg x (y.resetChips cfg) (n + 14) (evs ++ resetEvents)

theorem Writes.trans {cfg : Cfg} {x y z : Ser} {m n : Nat} {a b : List ChipEvent} (h1 : Writes cfg x y m a)
    (h2 : Writes cfg y z n b) : Writes cfg x z (m + n) (a ++ b) := by
  induction h2 with
  | none => simpa using h1
  | psg _ v ih =>
    rw [← Nat.add_assoc, ← List.append_assoc]
    exact ih.psg v
  | fm _ port reg val ih =>
    rw [← Nat.add_assoc, ← List.append_assoc]
    exact ih.fm port reg val
  | reset _ ih =>
    rw [← Nat.add_assoc, ← List.append_assoc]
    exact ih.reset

theorem Ser.resetChips_bus (cfg : Cfg) (x : Ser) :
    ∃ fs, (x.resetChips cfg).bus = x.bus ++ fs ∧ fs.length = 14 := by
  simp only [Ser.resetChips_eq, Ser.writePsgByte_eq, Ser.send_bus, List.append_assoc]
  exact ⟨_, rfl, rfl⟩

/-- BUS only grows, by the frames of the run, ready or not (40_bus_serializer.md R144). -/
theorem Writes.bus {cfg : Cfg} {x y : Ser} {n : Nat} {evs : List ChipEvent} (h : Writes cfg x y n evs) :
    ∃ fs, y.bus = x.bus ++ fs ∧ fs.length = n := by
  induction h with
  | none => exact ⟨[], by simp⟩
  | psg _ v ih =>
    obtain ⟨fs, hbus, hlen⟩ := ih
    exact ⟨fs ++ psgFrames _ _ v, by rw [Ser.writePsgByte_eq, Ser.send_bus, hbus, List.append_assoc],
      by rw [List.length_append, hlen]; rfl⟩
  | fm _ port reg val ih =>
    obtain ⟨fs, hbus, hlen⟩ := ih
    exact ⟨fs ++ fmFrames _ _ port reg val, by rw [Ser.writeFmRegister_eq, Ser.send_bus, hbus, List.append_assoc],
      by rw [List.length_append, hlen]; rfl⟩
  | @reset y _ _ _ ih =>
    obtain ⟨fs, hbus, hlen⟩ := ih
    obtain ⟨gs, hbus', hlen'⟩ := Ser.resetChips_bus cfg y
    exact ⟨fs ++ gs, by rw [hbus', hbus, List.append_assoc], by rw [List.length_append, hlen, hlen']⟩

/-- From a ready serializer the run emits its events in legal frames (40_bus_serializer.md R147, R148). -/
theorem Writes.emits {cfg : Cfg} {x y : Ser} {n : Nat} {evs : List ChipEvent} (h : Writes cfg x y n evs)
    (hw : cfg.rev.Wf) (hx : SerReady cfg.rev x) : Emits cfg.rev x y n evs := by
  induction h with
  | none => exact Emits.refl hx
  | psg _ v ih => exact ih.trans (Ser.writePsgByte_emits hw ih.ready v)
  | fm _ port reg val ih => exact ih.trans (Ser.writeFmRegister_emits hw ih.ready port reg val)
  | reset _ ih => exact ih.trans (Ser.resetChips_emits hw ih.ready)

theorem writes_psg (cfg : Cfg) (x : Ser) (v : Byte) : Writes cfg x (x.writePsgByte cfg v) 3 [.psgByte v] :=
  Writes.none.psg v

theorem writes_fm (cfg : Cfg) (x : Ser) (port reg val : Byte) :
    Writes cfg x (x.writeFmRegister cfg port reg val) 7 (fmEvents port reg val) :=
  Writes.none.fm port reg val

theorem writes_reset (cfg : Cfg) (x : Ser) : Writes cfg x (x.resetChips cfg) 14 resetEvents :=
  Writes.none.reset

/-- The muting pass as a run (41_mix_engine.md R166). -/
theorem writes_muting (cfg : Cfg) (x : Ser) (fm : Fin 6 → Byte) (psg : BitVec 2 → Byte) :
    Writes cfg x (x.emitMuting cfg fm psg) 54 (mutingEvents fm psg) := by
  rw [Ser.emitMuting_eq]
  exact ((((((((((Writes.none.fm 0 0xB4 (fm 0)).fm 0 0xB5 (fm 1)).fm 0 0xB6 (fm 2)).fm 1 0xB4 (fm 3)).fm 1 0xB5
    (fm 4)).fm 1 0xB6 (fm 5)).psg (psg 0)).psg (psg 1)).psg (psg 2)).psg (psg 3))

/-! ### Silent events -/

/-- Pan writes closed, attenuation latch bytes at 15 (41_mix_engine.md R169). -/
def SilentEvents (evs : List ChipEvent) : Prop := PanSilent evs ∧ AttSilent evs

theorem silent_nil : SilentEvents [] := ⟨trivial, nofun⟩

theorem silent_psg {v : Byte} (h : psgIsLatch v = true → psgIsAtt v = true → v &&& 0x0F = 0x0F) :
    SilentEvents [.psgByte v] := by
  refine ⟨trivial, fun w hw => ?_⟩
  cases List.mem_singleton.1 hw
  exact h

theorem silent_psg_cons {v : Byte} {evs : List ChipEvent}
    (h : psgIsLatch v = true → psgIsAtt v = true → v &&& 0x0F = 0x0F) (hevs : SilentEvents evs) :
    SilentEvents (.psgByte v :: evs) := by
  refine ⟨hevs.1, fun w hw => ?_⟩
  obtain hw | hw := List.mem_cons.1 hw
  · cases hw
    exact h
  · exact hevs.2 w hw

theorem silent_fm_append {port reg val : Byte} {evs : List ChipEvent}
    (h : 0xB4 ≤ reg → reg ≤ 0xB6 → val &&& 0xC0 = 0) (hevs : SilentEvents evs) :
    SilentEvents (fmEvents port reg val ++ evs) := by
  refine ⟨⟨fun _ => h, hevs.1⟩, fun w hw => hevs.2 w ?_⟩
  simpa [fmEvents] using hw

theorem silent_fm {port reg val : Byte} (h : 0xB4 ≤ reg → reg ≤ 0xB6 → val &&& 0xC0 = 0) :
    SilentEvents (fmEvents port reg val) := by
  rw [← List.append_nil (fmEvents port reg val)]
  exact silent_fm_append h silent_nil

theorem silent_reset : SilentEvents resetEvents := by
  refine ⟨trivial, fun w hw _ _ => ?_⟩
  simp only [resetEvents, List.mem_cons, reduceCtorEq, ChipEvent.psgByte.injEq, List.not_mem_nil, or_false,
    false_or] at hw
  obtain rfl | rfl | rfl | rfl := hw <;> rfl

theorem silentPan_closed (p : Byte) : p &&& 0x3F &&& 0xC0 = 0 := by
  rw [BitVec.and_assoc]
  exact BitVec.and_zero

theorem silentAtt_full (a : Byte) : (a ||| 0x0F) &&& 0x0F = 0x0F := by
  ext k hk
  simp only [BitVec.getElem_and, BitVec.getElem_or]
  cases a[k] <;> simp

/-- A pass of silent bytes is silent (41_mix_engine.md R166, R169). -/
theorem silent_muting {fm : Fin 6 → Byte} {psg : BitVec 2 → Byte} (hfm : ∀ i, fm i &&& 0xC0 = 0)
    (hpsg : ∀ c, psg c &&& 0x0F = 0x0F) : SilentEvents (mutingEvents fm psg) := by
  have hatts : SilentEvents [.psgByte (psg 0), .psgByte (psg 1), .psgByte (psg 2), .psgByte (psg 3)] :=
    silent_psg_cons (fun _ _ => hpsg 0) (silent_psg_cons (fun _ _ => hpsg 1)
      (silent_psg_cons (fun _ _ => hpsg 2) (silent_psg fun _ _ => hpsg 3)))
  simp only [mutingEvents, List.append_assoc]
  exact silent_fm_append (fun _ _ => hfm 0) (silent_fm_append (fun _ _ => hfm 1) (silent_fm_append (fun _ _ => hfm 2)
    (silent_fm_append (fun _ _ => hfm 3) (silent_fm_append (fun _ _ => hfm 4)
      (silent_fm_append (fun _ _ => hfm 5) hatts)))))

/-- Forced, or under armed mitigation, the multiplexer's bytes are silent (41_mix_engine.md R162, R164, R169). -/
theorem silent_pass {s : State} {force : Bool} (h : force = true ∨ s.armed = true) :
    SilentEvents (mutingEvents (fun i => s.fmPanOut i force) (fun c => s.psgAttOut c force)) :=
  silent_muting (fun i => by rw [fmPanOut_silent h]; exact silentPan_closed _)
    (fun c => by rw [psgAttOut_silent h]; exact silentAtt_full _)

/-! ### The traffic of each instruction -/

/-- What an instruction from `s` to `t` sends: at most 61 frames, and only silence while mitigation is armed before
and after it (46_scheduler.md R290, 41_mix_engine.md R169). -/
def Traffic (s t : State) : Prop :=
  ∃ n evs, n ≤ 61 ∧ Writes s.cfg s.ser t.ser n evs ∧
    (PsgLowInv s → s.armed = true → t.clk.fwSeen = false → SilentEvents evs)

theorem Traffic.quiet {s t : State} (h : t.ser = s.ser) : Traffic s t :=
  ⟨0, [], by omega, h ▸ Writes.none, fun _ _ _ => silent_nil⟩

/-- Everything PSGW can send (42_cmd_chip_writes.md R183 to R186): a frequency latch byte, a data byte, a data byte
after the fixed low byte, or an attenuation latch byte. -/
theorem psgWrite_ser_cases (v : Byte) (s : State) :
    (psgIsAtt v = false ∧ (psgWrite v s).ser = s.ser.writePsgByte s.cfg v) ∨
    (psgIsLatch v = false ∧ (psgWrite v s).ser = s.ser.writePsgByte s.cfg v) ∨
    (psgIsLatch v = false ∧ s.trk.psgLowV = true ∧
      (psgWrite v s).ser = (s.ser.writePsgByte s.cfg (s.trk.psgLow ||| 0x01)).writePsgByte s.cfg v) ∨
    ∃ c cached, (psgWrite v s).ser = s.ser.writePsgByte s.cfg (psgSent s c cached) := by
  cases hlatch : psgIsLatch v with
  | true =>
    cases hatt : psgIsAtt v with
    | true =>
      refine .inr (.inr (.inr ⟨psgChannel v, v, ?_⟩))
      rw [psgWrite_attLatch hlatch hatt]
      exact psgAttWrite_ser _ _ _ (trackLatch v s)
    | false =>
      refine .inl ⟨rfl, ?_⟩
      rw [psgWrite_freqLatch hlatch hatt]
      rfl
  | false =>
    cases htype : s.trk.psgType with
    | true =>
      refine .inr (.inr (.inr ⟨s.trk.psgCh, psgAttByte s.trk.psgCh (psgNibble v), ?_⟩))
      rw [psgWrite_attData hlatch htype, psgAttWrite_ser]
    | false =>
      rw [psgWrite_freqData hlatch htype]
      cases hfix : freqFixFires v s with
      | true =>
        obtain ⟨-, hvalid, -⟩ := (freqFixFires_iff v s).1 hfix
        exact .inr (.inr (.inl ⟨rfl, hvalid, by rw [psgFreqData_fires hfix]; rfl⟩))
      | false => exact .inr (.inl ⟨rfl, by rw [psgFreqData_plain hfix]; rfl⟩)

theorem psgWrite_traffic (v : Byte) (s : State) : Traffic s (psgWrite v s) := by
  unfold Traffic
  obtain ⟨hfreq, h⟩ | ⟨hdata, h⟩ | ⟨hdata, hvalid, h⟩ | ⟨c, cached, h⟩ := psgWrite_ser_cases v s <;> rw [h]
  · refine ⟨3, _, by omega, writes_psg _ _ v, fun _ _ _ => silent_psg fun _ hatt => ?_⟩
    cases hfreq.symm.trans hatt
  · refine ⟨3, _, by omega, writes_psg _ _ v, fun _ _ _ => silent_psg fun hlatch => ?_⟩
    cases hdata.symm.trans hlatch
  · refine ⟨6, _, by omega, (writes_psg _ _ _).psg v, fun hlow _ _ => ?_⟩
    obtain ⟨-, hfreq, -⟩ := hlow hvalid
    refine silent_psg_cons (fun _ hatt => ?_) (silent_psg fun hlatch => ?_)
    · rw [(freqFix_form s.trk.psgLow).2.1] at hatt
      cases hfreq.symm.trans hatt
    · cases hdata.symm.trans hlatch
  · refine ⟨3, _, by omega, writes_psg _ _ _, fun _ harmed _ => silent_psg fun _ _ => ?_⟩
    rw [psgSent, if_pos (.inl harmed)]
    exact silentAtt_full cached

theorem fmWrite_traffic (port : Bool) (reg val : Byte) (s : State) : Traffic s (fmWrite port reg val s) := by
  obtain ⟨i, -, -, h⟩ | ⟨rfl, rfl, h⟩ | ⟨hnotPan, hser⟩ := fmWrite_cases port reg val s
  · rw [h]
    refine ⟨7, _, by omega, writes_fm _ _ (portByte port) reg _, fun _ harmed _ => silent_fm fun _ _ => ?_⟩
    rw [fmPanOut_silent (s := s.setFmPan i val) (.inr harmed)]
    exact silentPan_closed _
  · rw [h]
    have henable : Writes s.cfg s.ser (dacEnabled val s).ser 7 (fmEvents 0 0x2B val) := writes_fm _ _ 0 0x2B val
    rw [fmDacEnable_eq]
    refine ⟨14, _, by omega, henable.fm 1 0xB6 _, fun _ harmed _ => ?_⟩
    refine silent_fm_append (fun hlow => absurd hlow (by decide)) (silent_fm fun _ _ => ?_)
    rw [fmPanOut_silent (s := dacEnabled val s) (.inr harmed)]
    exact silentPan_closed _
  · unfold Traffic
    rw [hser]
    exact ⟨7, _, by omega, writes_fm _ _ (portByte port) reg val, fun _ _ _ =>
      silent_fm fun hlow hhigh => absurd ⟨hlow, hhigh⟩ hnotPan⟩

/-- A wait is quiet, or it is the first one, sends one pass and disarms mitigation (43_cmd_waits.md R220). -/
theorem waitSamples_writes (w : U32) (s : State) :
    (waitSamples w s).ser = s.ser ∨
      (∃ evs, Writes s.cfg s.ser (waitSamples w s).ser 54 evs) ∧ (waitSamples w s).clk.fwSeen = true := by
  obtain ⟨-, h⟩ | ⟨hw, hseen, -⟩ := waitSamples_cases w s
  · exact .inl (by rw [h])
  · have hpass := State.emitMuting_ser
      { s with clk := firstWaitClock s w, act := rebasedStream s.act 0 } false
    rw [waitSamples_first hw hseen]
    exact .inr ⟨⟨_, hpass ▸ writes_muting s.cfg s.ser _ _⟩, rfl⟩

theorem waitSamples_traffic (w : U32) (s : State) : Traffic s (waitSamples w s) := by
  obtain hquiet | ⟨⟨evs, hpass⟩, hseen⟩ := waitSamples_writes w s
  · exact Traffic.quiet hquiet
  · exact ⟨54, evs, by omega, hpass, fun _ _ hunseen => by cases hseen.symm.trans hunseen⟩

/-- The DAC write of DACW is at most one FM write, of no pan register (43_cmd_waits.md R225, R226). -/
theorem dacPop_writes (s : State) :
    ∃ n evs, n ≤ 7 ∧ Writes s.cfg s.ser (dacPop s).ser n evs ∧ SilentEvents evs := by
  obtain ⟨b, rest, -, h⟩ | ⟨-, h⟩ := dacPop_cases s <;> rw [h]
  · exact ⟨7, _, by omega, writes_fm _ _ 0 0x2A b, silent_fm fun hlow => absurd hlow (by decide)⟩
  · exact ⟨0, _, by omega, .none, silent_nil⟩

theorem dacw_traffic (w : U32) (s : State) : Traffic s (waitSamples w (dacPop s)) := by
  obtain ⟨n, evs, hn, hwrites, hsilent⟩ := dacPop_writes s
  have hcfg : (dacPop s).cfg = s.cfg := by rw [dacPop_frame]
  obtain hquiet | ⟨⟨evs', hpass⟩, hseen⟩ := waitSamples_writes w (dacPop s)
  · exact ⟨n, evs, by omega, hquiet ▸ hwrites, fun _ _ _ => hsilent⟩
  · rw [hcfg] at hpass
    exact ⟨n + 54, evs ++ evs', by omega, hwrites.trans hpass, fun _ _ hunseen => by cases hseen.symm.trans hunseen⟩

theorem after_resume_ser (s : State) :
    (after .resume s).ser = s.ser.emitMuting s.cfg (fun i => s.fmPanOut i false) (fun c => s.psgAttOut c false) :=
  State.emitMuting_ser { s with req := s.req.put .resume false } false

theorem after_stop_ser (s : State) :
    (after .stop s).ser = s.ser.emitMuting s.cfg (fun i => s.fmPanOut i true) (fun c => s.psgAttOut c true) := by
  simp only [after, exec, execStop, serviceStop, State.forceSilent, State.emitMuting_ser]
  rfl

/-- The traffic of the five services and of END (46_scheduler.md R290): how many frames, and that they are silent
under armed mitigation. -/
theorem service_writes (s : State) :
    (∃ evs, Writes s.cfg s.ser (after .updmute s).ser 54 evs ∧ (s.armed = true → SilentEvents evs)) ∧
    (∃ evs, Writes s.cfg s.ser (after .resume s).ser 54 evs ∧ (s.armed = true → SilentEvents evs)) ∧
    (∃ evs, Writes s.cfg s.ser (after .stop s).ser 54 evs ∧ SilentEvents evs) ∧
    Writes s.cfg s.ser (after .reset s).ser 14 resetEvents ∧
    Writes s.cfg s.ser (after .endStream s).ser 14 resetEvents := by
  rw [after_updmute_ser, after_resume_ser, after_stop_ser]
  exact ⟨⟨_, writes_muting _ _ _ _, fun harmed => silent_pass (.inr harmed)⟩,
    ⟨_, writes_muting _ _ _ _, fun harmed => silent_pass (.inr harmed)⟩,
    ⟨_, writes_muting _ _ _ _, silent_pass (.inl rfl)⟩, writes_reset _ _, writes_reset _ _⟩

theorem after_traffic (i : Instr) (s : State) : Traffic s (after i s) := by
  obtain ⟨⟨updEvs, hupd, hupdSilent⟩, ⟨resEvs, hres, hresSilent⟩, ⟨stopEvs, hstop, hstopSilent⟩, hreset, hend⟩ :=
    service_writes s
  cases i with
  | psgw v => exact psgWrite_traffic v s
  | fmw0 reg val => exact fmWrite_traffic false reg val s
  | fmw1 reg val => exact fmWrite_traffic true reg val s
  | wait n => exact waitSamples_traffic (n.setWidth 32) s
  | wait60 => exact waitSamples_traffic wait60Amount s
  | wait50 => exact waitSamples_traffic wait50Amount s
  | waits n => exact waitSamples_traffic (BitVec.ofNat 32 n) s
  | dacw n => exact dacw_traffic (n.setWidth 32) s
  | endStream => exact ⟨14, _, by omega, hend, fun _ _ _ => silent_reset⟩
  | reset => exact ⟨14, _, by omega, hreset, fun _ _ _ => silent_reset⟩
  | updmute => exact ⟨54, _, by omega, hupd, fun _ harmed _ => hupdSilent harmed⟩
  | resume => exact ⟨54, _, by omega, hres, fun _ harmed _ => hresSilent harmed⟩
  | stop => exact ⟨54, _, by omega, hstop, fun _ _ _ => hstopSilent⟩
  | strfreq sid f => exact .quiet (by rw [after_strfreq, streamFreq_frame])
  | strstop sid => exact .quiet (by rw [after_strstop, streamStop_frame])
  | strstart sid a m l => exact .quiet (by rw [after_streamStart (.inl ⟨sid, a, m, l, rfl⟩), streamStart_frame])
  | strfast sid b f => exact .quiet (by rw [after_streamStart (.inr ⟨sid, b, f, rfl⟩), streamStart_frame])
  | ggst v => exact .quiet rfl
  | strctl sid t p c => exact .quiet rfl
  | strdata sid d l b => exact .quiet rfl
  | pwm a d => exact .quiet rfl
  | start => exact .quiet rfl

/-- Settles O37: the silence clause of `Traffic`. -/
theorem trimMitigationSilences : Obligations.TrimMitigationSilences := by
  unfold Obligations.TrimMitigationSilences
  intro i s hready hlow htrim hunseen
  refine ⟨_, exec_eq_after i s, fun hunseen' => ?_⟩
  obtain ⟨n, evs, -, hwrites, hsilent⟩ := after_traffic i s
  exact ⟨evs, (hwrites.emits hready.1 hready.2).events, hsilent hlow ((armed_iff s).2 ⟨htrim, hunseen⟩) hunseen'⟩

/-! ### The traffic of a tick -/

/-- The DAC tick sends at most one FM write (44_cmd_dac_stream.md R252). -/
theorem dacTick_writes (s : State) : ∃ n evs, n ≤ 7 ∧ Writes s.cfg s.ser (dacTick s).ser n evs := by
  obtain ⟨-, h⟩ | ⟨-, -, h⟩ | ⟨b, rest, -, -, -, h⟩ | ⟨b, rest, -, -, -, h⟩ := dacTick_cases s
  · rw [h]
    exact ⟨0, [], by omega, .none⟩
  · rw [h]
    exact ⟨0, [], by omega, .none⟩
  · rw [h]
    exact ⟨0, [], by omega, .none⟩
  · rw [h, dacEmit_ser]
    exact ⟨7, _, by omega, writes_fm _ _ _ _ _⟩

theorem finishTick_writes (s : State) : ∃ n evs, n ≤ 7 ∧ Writes s.cfg s.ser (finishTick s).ser n evs := by
  unfold finishTick
  split
  · exact dacTick_writes s
  · exact ⟨0, [], by omega, .none⟩

/-- The command part of a Running tick (46_scheduler.md R287, R290). -/
theorem commandPart_writes {c u : State} (h : CommandPart c u) :
    u.cfg = c.cfg ∧ ∃ n evs, n ≤ 61 ∧ Writes c.cfg c.ser u.ser n evs := by
  cases h with
  | notDue hdue => exact ⟨rfl, 0, [], by omega, .none⟩
  | underrun hdecode => exact ⟨rfl, 0, [], by omega, .none⟩
  | unknown op hdecode => exact ⟨rfl, 0, [], by omega, .none⟩
  | runs i n hdue hdecode =>
    obtain ⟨-, -, -, -, henough, -⟩ := decode_ok hdecode
    rw [fetched_eq n c henough]
    obtain ⟨k, evs, hk, hwrites, -⟩ := after_traffic i
      { c with
        cmdq := c.cmdq.drop n
        cmdPc := c.cmdPc + BitVec.ofNat 32 n
        status := { c.status with cmdUnderrun := false } }
    exact ⟨(after_instrFrame i _).cfg, k, evs, hk, hwrites⟩

/-- How many frames each request service sends (46_scheduler.md R290). -/
def requestFrames : Instr → Nat
  | .updmute => 54
  | .stop => 54
  | .resume => 54
  | .reset => 14
  | _ => 0

theorem requestFrames_le (i : Instr) : requestFrames i ≤ 54 := by
  unfold requestFrames
  split <;> omega

theorem isCommand_of_decodeReq {w : BitVec 5} {i : Instr} (h : decodeReq w = some i) : i.isCommand = false := by
  unfold decodeReq at h
  split_ifs at h <;> cases h <;> rfl

theorem request_writes {i : Instr} (h : i.isCommand = false) (s : State) :
    ∃ evs, Writes s.cfg s.ser (after i s).ser (requestFrames i) evs := by
  obtain ⟨⟨updEvs, hupd, -⟩, ⟨resEvs, hres, -⟩, ⟨stopEvs, hstop, -⟩, hreset, -⟩ := service_writes s
  cases i with
  | updmute => exact ⟨updEvs, hupd⟩
  | resume => exact ⟨resEvs, hres⟩
  | stop => exact ⟨stopEvs, hstop⟩
  | reset => exact ⟨_, hreset⟩
  | start => exact ⟨[], .none⟩
  | _ => cases h

/-- Settles O14: each branch of the tick by its run of writes. -/
theorem tickFrameBudget : Obligations.TickFrameBudget := by
  unfold Obligations.TickFrameBudget
  intro s t htick
  cases tickWork_of_tick htick with
  | request i hreq =>
    obtain ⟨evs, hwrites⟩ := request_writes (isCommand_of_decodeReq hreq) (clearFault s)
    obtain ⟨fs, hbus, hlen⟩ := hwrites.bus
    have hle := requestFrames_le i
    rw [hreq]
    refine ⟨fs, hbus, by omega, ?_, ?_, ?_, nofun⟩ <;> rw [hlen]
    · rintro (h | h | h) <;> cases h <;> rfl
    · rintro ⟨⟩
      rfl
    · rintro ⟨⟩
      rfl
  | idle hreq hidle =>
    refine ⟨[], (List.append_nil _).symm, by simp, ?_⟩
    simp [hreq]
  | running u hreq hrun hpart =>
    obtain ⟨hcfg, n, evs, hn, hcommand⟩ := commandPart_writes hpart
    obtain ⟨m, evs', hm, hdac⟩ := finishTick_writes u
    rw [hcfg] at hdac
    obtain ⟨fs, hbus, hlen⟩ := (hcommand.trans hdac).bus
    exact ⟨fs, hbus, by omega, by simp [hreq], by simp [hreq], by simp [hreq],
      fun _ hidle => by cases hrun.symm.trans hidle⟩

end Sys2Proof.Machine
end

section
/-! SUPPORT. What a whole tick does to LOG, the activity table, the data queues and the pool, and the bus invariant
of a whole step. -/

namespace Sys2Proof.Machine

open Host

/-! ### A step -/

theorem step_eq_next {s t : State} (h : step s = .next t) : ∃ u, tick s = .next u ∧ betweenTicks u = .next t := by
  unfold step at h
  split at h
  · exact andThen_eq_next.1 h
  · cases h

/-- Between ticks time passes and the agents act (20_memory.md R78). -/
theorem betweenTicks_eq_next {s t : State} (h : betweenTicks s = .next t) :
    ∃ elapsed agenda actions, applyActions actions (passTime elapsed { s with agenda := agenda }) = .next t := by
  unfold betweenTicks at h
  split at h
  · exact ⟨_, s.agenda, [], h⟩
  next iv rest _ => exact ⟨iv.elapsed, rest, iv.actions, h⟩

/-! ### The bus invariant -/

/-- The configuration is kept, and under it the bus invariant (40_bus_serializer.md R148). -/
def BusKept (s t : State) : Prop :=
  t.cfg = s.cfg ∧ (s.cfg.rev.Wf → SerInv s.cfg.rev s.ser → SerInv s.cfg.rev t.ser)

theorem BusKept.trans {s t u : State} (h1 : BusKept s t) (h2 : BusKept t u) : BusKept s u := by
  obtain ⟨hcfg1, hinv1⟩ := h1
  obtain ⟨hcfg2, hinv2⟩ := h2
  rw [hcfg1] at hinv2 hcfg2
  exact ⟨hcfg2, fun hw hinv => hinv2 hw (hinv1 hw hinv)⟩

theorem BusKept.of_eq {s t : State} (hcfg : t.cfg = s.cfg) (hser : t.ser = s.ser) : BusKept s t :=
  ⟨hcfg, fun _ hinv => by rw [hser]; exact hinv⟩

theorem BusKept.of_writes {s t : State} {n : Nat} {evs : List ChipEvent} (hcfg : t.cfg = s.cfg)
    (h : Writes s.cfg s.ser t.ser n evs) : BusKept s t :=
  ⟨hcfg, fun hw hinv => (h.emits hw hinv.1).inv hinv⟩

theorem tickPart_busKept {s t : State} (h : TickPart s t) : BusKept s t := by
  cases h with
  | clear => exact .of_eq rfl rfl
  | clock => exact .of_eq rfl rfl
  | underrun => exact .of_eq rfl rfl
  | unknown op => exact .of_eq rfl rfl
  | fetch n _ henough =>
    rw [fetched_eq n s henough]
    exact .of_eq rfl rfl
  | exec i =>
    obtain ⟨n, evs, -, hwrites, -⟩ := after_traffic i s
    exact .of_writes (after_instrFrame i s).cfg hwrites
  | dac =>
    obtain ⟨n, evs, -, hwrites⟩ := dacTick_writes s
    exact .of_writes (dacTick_cfg s) hwrites

theorem betweenTicks_busKept {s t : State} (h : betweenTicks s = .next t) : BusKept s t := by
  obtain ⟨elapsed, agenda, actions, hacts⟩ := betweenTicks_eq_next h
  rw [(applyActions_agentsStep hacts).frame]
  exact .of_eq rfl rfl

/-- Settles O18: every part of the tick and the interval after it keep the invariant. -/
theorem stepKeepsBusLegal : Obligations.StepKeepsBusLegal := by
  unfold Obligations.StepKeepsBusLegal
  intro s t hw hinv hstep
  obtain ⟨u, htick, hbetween⟩ := step_eq_next hstep
  have hkept : BusKept s u :=
    tick_relates (R := BusKept) (fun _ _ _ => BusKept.trans) (fun _ _ => tickPart_busKept) htick
  obtain ⟨hcfg, hser⟩ := hkept.trans (betweenTicks_busKept hbetween)
  rw [hcfg]
  exact ⟨rfl, hser hw hinv⟩

/-! ### LOG -/

/-- `t` has logged at most one entry more than `s`, with one of the codes. -/
def LogsOne (codes : List Byte) (s t : State) : Prop :=
  ∃ a, t.log = s.log ++ a ∧ a.length ≤ 1 ∧ ∀ e ∈ a, e.code ∈ codes

theorem LogsOne.none {codes : List Byte} {s t : State} (h : t.log = s.log) : LogsOne codes s t :=
  ⟨[], by rw [h, List.append_nil], by simp, nofun⟩

theorem LogsOne.one {codes : List Byte} {s t : State} {code : Byte} {info : U32}
    (h : t.log = s.log ++ [{ code := code, info := info }]) (hcode : code ∈ codes) : LogsOne codes s t :=
  ⟨_, h, by simp, fun e he => by rw [List.mem_singleton.1 he]; exact hcode⟩

/-- The codes of E1 to E4, L1 and L2 (60_exceptions.md R312, R318). -/
def commandCodes : List Byte := [1, 2, 3, 4, 0x11, 0x12]

theorem dacPop_logsOne (s : State) : LogsOne commandCodes s (dacPop s) := by
  obtain ⟨b, rest, -, h⟩ | ⟨-, h⟩ := dacPop_cases s
  · exact .none (by rw [h]; rfl)
  · exact .one (by rw [h]) (by decide)

theorem waitSamples_log (w : U32) (s : State) : (waitSamples w s).log = s.log := by
  rw [waitSamples_frame]

theorem streamFreq_logsOne (f : U32) (s : State) : LogsOne commandCodes s (streamFreq f s) := by
  unfold streamFreq
  split
  · exact .none rfl
  · exact .one rfl (by decide)

theorem streamStart_logsOne (s : State) : LogsOne commandCodes s (streamStart s) := by
  obtain ⟨-, h⟩ | ⟨m, -, h⟩ := streamStart_cases s
  · exact .one (by rw [h]; rfl) (by decide)
  · exact .none (by rw [h, activateSlot_freeReplaced_frame]; rfl)

theorem after_logsOne (i : Instr) (s : State) : LogsOne commandCodes s (after i s) := by
  cases i with
  | ggst v => exact .one rfl (by decide)
  | pwm a d => exact .one rfl (by decide)
  | psgw v => exact .none (by rw [after_psgw, psgWrite_frame])
  | fmw0 reg val => exact .none (by rw [after_fmw0, fmWrite_frame])
  | fmw1 reg val => exact .none (by rw [after_fmw1, fmWrite_frame])
  | wait n => exact .none (waitSamples_log (n.setWidth 32) s)
  | wait60 => exact .none (waitSamples_log wait60Amount s)
  | wait50 => exact .none (waitSamples_log wait50Amount s)
  | waits n => exact .none (waitSamples_log (BitVec.ofNat 32 n) s)
  | dacw n =>
    obtain ⟨a, hlog, hlen, hcodes⟩ := dacPop_logsOne s
    exact ⟨a, (waitSamples_log (n.setWidth 32) (dacPop s)).trans hlog, hlen, hcodes⟩
  | strfreq sid f => exact streamFreq_logsOne f s
  | strstart sid a m l => exact streamStart_logsOne s
  | strfast sid b f => exact streamStart_logsOne s
  | strstop sid => exact .none (by rw [after_strstop, streamStop_frame])
  | _ => exact .none rfl

theorem request_log {i : Instr} (h : i.isCommand = false) (s : State) : (after i s).log = s.log := by
  cases i with
  | start => rfl
  | updmute => rfl
  | reset => rfl
  | stop => rfl
  | resume => rfl
  | _ => cases h

theorem dacTick_logsOne (s : State) : LogsOne [logDacQueueEmpty] s (dacTick s) := by
  obtain ⟨-, h⟩ | ⟨-, -, h⟩ | ⟨b, rest, -, -, -, h⟩ | ⟨b, rest, -, -, -, h⟩ := dacTick_cases s
  · exact .none (by rw [h])
  · exact .one (by rw [h]; rfl) (List.mem_singleton.2 rfl)
  · exact .none (by rw [h])
  · exact .none (by rw [h, dacEmit_frame])

theorem finishTick_logsOne (s : State) : LogsOne [logDacQueueEmpty] s (finishTick s) := by
  unfold finishTick
  split
  · exact dacTick_logsOne s
  · exact .none rfl

theorem commandPart_logsOne {c u : State} (h : CommandPart c u) : LogsOne commandCodes c u := by
  cases h with
  | notDue hdue => exact .none rfl
  | underrun hdecode => exact .one rfl (by decide)
  | unknown op hdecode => exact .one rfl (by decide)
  | runs i n hdue hdecode =>
    obtain ⟨-, -, -, -, henough, -⟩ := decode_ok hdecode
    rw [fetched_eq n c henough]
    exact after_logsOne i _

/-- Settles O15: the command's entry comes before the DAC tick's. -/
theorem tickLogOrder : Obligations.TickLogOrder := by
  unfold Obligations.TickLogOrder
  intro s t htick
  cases tickWork_of_tick htick with
  | request i hreq =>
    have hlog := request_log (isCommand_of_decodeReq hreq) (clearFault s)
    exact ⟨[], [], by rw [hlog, List.append_nil, List.append_nil]; rfl, by simp, by simp, nofun, nofun,
      fun _ => ⟨rfl, rfl⟩⟩
  | idle hreq hidle =>
    exact ⟨[], [], by rw [List.append_nil, List.append_nil]; rfl, by simp, by simp, nofun, nofun,
      fun hne => absurd hreq hne⟩
  | running u hreq hrun hpart =>
    obtain ⟨a, hcommand, hlenA, hcodesA⟩ := commandPart_logsOne hpart
    obtain ⟨b, hdac, hlenB, hcodesB⟩ := finishTick_logsOne u
    exact ⟨a, b, by rw [hdac, hcommand]; rfl, hlenA, hlenB, hcodesA,
      fun e he => List.mem_singleton.1 (hcodesB e he), fun hne => absurd hreq hne⟩

/-! ### The activity table -/

/-- What a part of a tick may do to the activity table (10_state.md R49). -/
def ActivityKept (s t : State) : Prop :=
  ∀ v : Fin 10,
    ((s.activityAt v).param = true → (t.activityAt v).param = true) ∧
    (6 ≤ v.val → (t.activityAt v).param = (s.activityAt v).param ∧ (t.activityAt v).dac = (s.activityAt v).dac) ∧
    (v ≠ 5 → (t.activityAt v).dac = (s.activityAt v).dac)

theorem ActivityKept.trans {s t u : State} (h1 : ActivityKept s t) (h2 : ActivityKept t u) : ActivityKept s u := by
  intro v
  obtain ⟨hparam1, hpsg1, hdac1⟩ := h1 v
  obtain ⟨hparam2, hpsg2, hdac2⟩ := h2 v
  exact ⟨fun h => hparam2 (hparam1 h), fun hv => ⟨(hpsg2 hv).1.trans (hpsg1 hv).1, (hpsg2 hv).2.trans (hpsg1 hv).2⟩,
    fun hv => (hdac2 hv).trans (hdac1 hv)⟩

theorem ActivityKept.of_eq {s t : State} (h : t.activity = s.activity) : ActivityKept s t := by
  intro v
  have hv : t.activityAt v = s.activityAt v := by simp only [State.activityAt, h]
  rw [hv]
  exact ⟨id, fun _ => ⟨rfl, rfl⟩, fun _ => rfl⟩

/-- A part that writes one voice keeps the rule if it keeps it there. -/
theorem ActivityKept.of_voice {s t : State} {w : Fin 10} {a : Activity}
    (h : ∀ k, t.activityAt k = if k = w then a else s.activityAt k)
    (hparam : (s.activityAt w).param = true → a.param = true)
    (hpsg : 6 ≤ w.val → a.param = (s.activityAt w).param)
    (hdac : w ≠ 5 → a.dac = (s.activityAt w).dac) : ActivityKept s t := by
  intro v
  rw [h]
  split
  next hv =>
    subst hv
    exact ⟨hparam, fun h6 => ⟨hpsg h6, hdac (by rintro rfl; exact absurd h6 (by decide))⟩, hdac⟩
  next => exact ⟨id, fun _ => ⟨rfl, rfl⟩, fun _ => rfl⟩

theorem psgAttWrite_activityKept (c : BitVec 2) (cached : Byte) (a : BitVec 4) (s : State) :
    ActivityKept s (psgAttWrite c cached a s) :=
  .of_voice (psgAttWrite_activityAt c cached a s) id (fun _ => rfl) fun _ => rfl

theorem psgWrite_activityKept (v : Byte) (s : State) : ActivityKept s (psgWrite v s) := by
  cases hlatch : psgIsLatch v with
  | true =>
    cases hatt : psgIsAtt v with
    | true =>
      rw [psgWrite_attLatch hlatch hatt]
      exact psgAttWrite_activityKept _ _ _ (trackLatch v s)
    | false =>
      rw [psgWrite_freqLatch hlatch hatt]
      exact .of_eq rfl
  | false =>
    cases htype : s.trk.psgType with
    | true =>
      rw [psgWrite_attData hlatch htype]
      exact psgAttWrite_activityKept _ _ _ s
    | false =>
      rw [psgWrite_freqData hlatch htype, psgFreqData_frame]
      exact .of_eq rfl

theorem fmVoice_lt (i : Fin 6) : ¬ 6 ≤ (fmVoice i).val := Nat.not_le.2 i.isLt

theorem fmKeyOn_activityKept (val : Byte) (s : State) : ActivityKept s (fmKeyOn val s) := by
  cases h : keyOnChannel val with
  | none =>
    rw [fmKeyOn_none h]
    exact .of_eq rfl
  | some i => exact .of_voice (fmKeyOn_activityAt h s) id (fun _ => rfl) fun _ => rfl

theorem fmWrite_activityKept (port : Bool) (reg val : Byte) (s : State) : ActivityKept s (fmWrite port reg val s) := by
  unfold fmWrite
  cases fmClass port reg with
  | pan i => exact .of_eq rfl
  | other => exact .of_eq rfl
  | dacData => exact .of_eq rfl
  | keyOn => exact fmKeyOn_activityKept val s
  | alg i =>
    exact .of_voice (fmAlg_activityAt port reg val i s) (fun _ => rfl) (fun h => absurd h (fmVoice_lt i)) fun _ => rfl
  | chParam i =>
    exact .of_voice (fmChParam_activityAt port reg val i s) (fun _ => rfl) (fun h => absurd h (fmVoice_lt i))
      fun _ => rfl
  | dacEn => exact .of_voice (fmDacEnable_activityAt val s) id (fun _ => rfl) fun h => absurd rfl h

theorem after_activityKept (i : Instr) (s : State) : ActivityKept s (after i s) := by
  have hother (hpsgw : ∀ v, i ≠ .psgw v) (hfmw0 : ∀ r v, i ≠ .fmw0 r v) (hfmw1 : ∀ r v, i ≠ .fmw1 r v)
      (hstart : i ≠ .start) : ActivityKept s (after i s) := by
    obtain ⟨t, hexec, -, hactivity, -⟩ := controlsAndCachesWriters.2 i s hpsgw hfmw0 hfmw1 hstart
    rw [after_of_exec hexec]
    exact .of_eq hactivity
  cases i with
  | psgw v => exact psgWrite_activityKept v s
  | fmw0 reg val => exact fmWrite_activityKept false reg val s
  | fmw1 reg val => exact fmWrite_activityKept true reg val s
  | start => exact .of_eq rfl
  | _ => exact hother nofun nofun nofun nofun

theorem tickPart_activityKept {s t : State} (h : TickPart s t) : ActivityKept s t := by
  cases h with
  | clear => exact .of_eq rfl
  | clock => exact .of_eq rfl
  | underrun => exact .of_eq rfl
  | unknown op => exact .of_eq rfl
  | fetch n _ henough =>
    rw [fetched_eq n s henough]
    exact .of_eq rfl
  | exec i => exact after_activityKept i s
  | dac => exact .of_eq (dacTick_activity s)

/-- Settles O56. -/
theorem activityFlagsWrittenByTicks : Obligations.ActivityFlagsWrittenByTicks := by
  unfold Obligations.ActivityFlagsWrittenByTicks
  intro s t htick
  exact tick_relates (R := ActivityKept) (fun _ _ _ => ActivityKept.trans) (fun _ _ => tickPart_activityKept) htick

/-! ### The pool and the data queues -/

/-- What an instruction may do to a slot: free it and set its count (20_memory.md R74, 10_state.md R46). -/
def SlotKept (x y : Slot) : Prop :=
  (x.free = true → y.free = true) ∧ y = { x with free := y.free, playedCount := y.playedCount }

/-- What a tick may do to a slot: also take its oldest byte (20_memory.md R74). -/
def SlotConsumed (x y : Slot) : Prop :=
  (x.free = true → y.free = true) ∧ (y.queue = x.queue ∨ ∃ b, x.queue = b :: y.queue) ∧
    y = { x with free := y.free, queue := y.queue, playedCount := y.playedCount }

theorem SlotKept.refl (x : Slot) : SlotKept x x := ⟨id, rfl⟩

theorem SlotConsumed.refl (x : Slot) : SlotConsumed x x := ⟨id, .inl rfl, rfl⟩

theorem SlotKept.trans_consumed {x y z : Slot} (h1 : SlotKept x y) (h2 : SlotConsumed y z) : SlotConsumed x z := by
  obtain ⟨hfree, hy⟩ := h1
  obtain ⟨hfree', hqueue, hz⟩ := h2
  rw [hy] at hqueue hz
  exact ⟨fun h => hfree' (hfree h), hqueue, hz⟩

/-- An instruction keeps the number of slots and each of them as `SlotKept` says, and takes at most the oldest byte of
PCMQ. -/
def Consumes (s t : State) : Prop :=
  (t.pcmq = s.pcmq ∨ ∃ b, s.pcmq = b :: t.pcmq) ∧ t.slots.length = s.slots.length ∧
    ∀ (k : Nat) (x : Slot), s.slots[k]? = some x → ∃ y, t.slots[k]? = some y ∧ SlotKept x y

theorem Consumes.of_slots {s t : State} (hslots : t.slots = s.slots)
    (hpcmq : t.pcmq = s.pcmq ∨ ∃ b, s.pcmq = b :: t.pcmq) : Consumes s t := by
  unfold Consumes
  rw [hslots]
  exact ⟨hpcmq, rfl, fun _ x hx => ⟨x, hx, .refl x⟩⟩

theorem Consumes.of_eq {s t : State} {ser mix trk clk req status stopped act activity log}
    (h : t =
      { s with
        ser := ser, mix := mix, trk := trk, clk := clk, req := req, status := status, stopped := stopped, act := act,
        activity := activity, log := log }) : Consumes s t := by
  subst h
  exact .of_slots rfl (.inl rfl)

theorem streamStart_slots_length (s : State) : (streamStart s).slots.length = s.slots.length := by
  obtain ⟨-, h⟩ | ⟨m, -, h⟩ := streamStart_cases s <;> rw [h] <;> simp

theorem streamStart_consumes (s : State) : Consumes s (streamStart s) := by
  refine ⟨.inl (by rw [streamStart_frame]), streamStart_slots_length s, fun k x hx => ?_⟩
  obtain ⟨replaced, count, hslot, -⟩ := streamStart_getElem? hx
  exact ⟨_, hslot, fun hfree => by simp [hfree], rfl⟩

theorem streamStop_consumes (s : State) : Consumes s (streamStop s) := by
  cases hactive : s.act.active with
  | false =>
    rw [streamStop_inactive hactive]
    exact .of_eq rfl
  | true =>
    rw [streamStop_active hactive]
    refine ⟨.inl rfl, by simp, fun k x hx => ⟨_, freeSlot_getElem? hx s.act.slot, ?_⟩⟩
    split
    · exact ⟨fun _ => rfl, rfl⟩
    · exact .refl x

theorem dacw_consumes (w : U32) (s : State) : Consumes s (waitSamples w (dacPop s)) := by
  rw [waitSamples_dacPop_frame]
  refine .of_slots rfl ?_
  obtain ⟨b, rest, hq, h⟩ | ⟨-, h⟩ := dacPop_cases s <;> rw [h]
  · exact .inr ⟨b, hq⟩
  · exact .inl rfl

theorem after_consumes (i : Instr) (s : State) : Consumes s (after i s) := by
  cases i with
  | strstart sid a m l => exact streamStart_consumes s
  | strfast sid b f => exact streamStart_consumes s
  | strstop sid => exact streamStop_consumes s
  | dacw n => exact dacw_consumes (n.setWidth 32) s
  | psgw v => exact .of_eq (psgWrite_frame v s)
  | fmw0 reg val => exact .of_eq (fmWrite_frame false reg val s)
  | fmw1 reg val => exact .of_eq (fmWrite_frame true reg val s)
  | wait n => exact .of_eq (waitSamples_frame (n.setWidth 32) s)
  | wait60 => exact .of_eq (waitSamples_frame wait60Amount s)
  | wait50 => exact .of_eq (waitSamples_frame wait50Amount s)
  | waits n => exact .of_eq (waitSamples_frame (BitVec.ofNat 32 n) s)
  | strfreq sid f => exact .of_eq (streamFreq_frame f s)
  | start => exact .of_slots rfl (.inl rfl)
  | _ => exact .of_eq rfl

theorem commandPart_consumes {c u : State} (h : CommandPart c u) : Consumes c u := by
  cases h with
  | notDue hdue => exact .of_eq rfl
  | underrun hdecode => exact .of_slots rfl (.inl rfl)
  | unknown op hdecode => exact .of_slots rfl (.inl rfl)
  | runs i n hdue hdecode =>
    obtain ⟨-, -, -, -, henough, -⟩ := decode_ok hdecode
    rw [fetched_eq n c henough]
    exact after_consumes i _

theorem dacTick_slots_length (s : State) : (dacTick s).slots.length = s.slots.length := by
  obtain ⟨-, h⟩ | ⟨-, -, h⟩ | ⟨b, rest, -, -, -, h⟩ | ⟨b, rest, -, -, -, h⟩ := dacTick_cases s
  · rw [h]
  · rw [h]
    rfl
  · rw [h]
  · rw [h, dacEmit_slots_length]

/-- The DAC tick takes the oldest byte of the slot it plays (44_cmd_dac_stream.md R252). -/
theorem dacTick_getElem? {s : State} {k : Nat} {x : Slot} (hx : s.slots[k]? = some x) :
    ∃ y, (dacTick s).slots[k]? = some y ∧ SlotConsumed x y := by
  obtain ⟨-, h⟩ | ⟨-, -, h⟩ | ⟨b, rest, -, -, -, h⟩ | ⟨b, rest, -, hqueue, -, h⟩ := dacTick_cases s <;> rw [h]
  · exact ⟨x, hx, .refl x⟩
  · exact ⟨x, hx, .refl x⟩
  · exact ⟨x, hx, .refl x⟩
  · refine ⟨_, dacEmit_getElem? hx b rest, ?_⟩
    split
    next hk =>
      subst hk
      rw [State.slotAt_of_getElem? hx] at hqueue
      exact ⟨fun hfree => by simp [hfree], .inr ⟨b, hqueue⟩, rfl⟩
    next => exact .refl x

/-- Settles O57: at most the DAC tick takes a byte of a slot's queue, after the command part left it. -/
theorem ticksOnlyConsume : Obligations.TicksOnlyConsume := by
  unfold Obligations.TicksOnlyConsume
  intro s t htick
  have hkept {u : State} (h : Consumes s u) :
      (u.pcmq = s.pcmq ∨ ∃ b, s.pcmq = b :: u.pcmq) ∧ u.slots.length = s.slots.length ∧
        ∀ (k : Nat) (x : Slot), s.slots[k]? = some x → ∃ y, u.slots[k]? = some y ∧ SlotConsumed x y := by
    obtain ⟨hpcmq, hlength, hslots⟩ := h
    refine ⟨hpcmq, hlength, fun k x hx => ?_⟩
    obtain ⟨y, hy, hxy⟩ := hslots k x hx
    exact ⟨y, hy, hxy.trans_consumed (.refl y)⟩
  cases tickWork_of_tick htick with
  | request i hreq => exact hkept (after_consumes i (clearFault s))
  | idle hreq hidle => exact hkept (.of_slots rfl (.inl rfl))
  | running u hreq hrun hpart =>
    obtain ⟨hpcmq, hlength, hslots⟩ := commandPart_consumes hpart
    unfold finishTick
    split
    · refine ⟨by rw [dacTick_pcmq]; exact hpcmq, (dacTick_slots_length u).trans hlength, fun k x hx => ?_⟩
      obtain ⟨y, hy, hxy⟩ := hslots k x hx
      obtain ⟨z, hz, hyz⟩ := dacTick_getElem? hy
      exact ⟨z, hz, hxy.trans_consumed hyz⟩
    · exact hkept ⟨hpcmq, hlength, hslots⟩

end Sys2Proof.Machine
end

section
/-! SUPPORT. The register invariant (10_state.md, 42_cmd_chip_writes.md R186, 44_cmd_dac_stream.md R257) through every
instruction, tick and interval; reset and setup. -/

namespace Sys2Proof.Machine

open Host

/-! ### The invariant without queues and slots -/

/-- The part of `RegInv` that no queue and no slot enters. -/
structure CoreInv (s : State) : Prop where
  clock : ClockInv s
  att : PsgAttInv s
  low : PsgLowInv s
  slot : s.act.active = true → s.act.slot < s.cfg.nSlots
  stream : StreamClockInv s
  mode : ModeInv s

theorem regInv_iff (s : State) :
    RegInv s ↔ Memory.wf s = true ∧ s.slots.length = s.cfg.nSlots ∧ CoreInv s := by
  constructor
  · rintro ⟨hmem, hclock, hatt, hlow, ⟨hlen, hslot⟩, hstream, hmode⟩
    exact ⟨hmem, hlen, hclock, hatt, hlow, fun hactive => hlen ▸ hslot hactive, hstream, hmode⟩
  · rintro ⟨hmem, hlen, hclock, hatt, hlow, hslot, hstream, hmode⟩
    exact ⟨hmem, hclock, hatt, hlow, ⟨hlen, fun hactive => hlen.symm ▸ hslot hactive⟩, hstream, hmode⟩

/-- What the invariant does not read may change. -/
theorem CoreInv.of_eq {s t : State}
    {setupOk hwcc ticks agenda ser pan alg dacEn dacAcc dacCnt cmdPc ctl lastHw nextDue fwSeen paused req finished ack
      cmd pcm fault seq lastSeq rate port reg mode len slots cmdq pcmq activity log}
    (h : t =
      { s with
        setupOk := setupOk, hwcc := hwcc, ticks := ticks, agenda := agenda, ser := ser,
        mix := { s.mix with fmPan := pan, fmAlg := alg },
        trk := { s.trk with dacEn := dacEn, dacAcc := dacAcc, dacCnt := dacCnt }, cmdPc := cmdPc, ctl := ctl,
        clk := { s.clk with lastHw := lastHw, nextDue := nextDue, fwSeen := fwSeen, paused := paused }, req := req,
        status :=
          { s.status with finished := finished, resetAck := ack, cmdUnderrun := cmd, pcmUnderrun := pcm },
        fault := fault, seq := seq, lastSeq := lastSeq,
        act := { s.act with rate := rate, port := port, reg := reg, mode := mode, len := len }, slots := slots,
        cmdq := cmdq, pcmq := pcmq, activity := activity, log := log })
    (hs : CoreInv s) : CoreInv t := by
  subst h
  obtain ⟨hclock, hatt, hlow, hslot, hstream, hmode⟩ := hs
  exact ⟨hclock, hatt, hlow, hslot, hstream, hmode⟩

/-! ### PSG writes -/

theorem psgAttInv_iff (s : State) : PsgAttInv s ↔ ∀ c : BitVec 2, s.psgAttAt c &&& 0xF0 = psgAttByte c 0 :=
  ⟨fun h c => h c.toFin, fun h c => h (BitVec.ofFin c)⟩

theorem psgAttWrite_coreInv {c : BitVec 2} {cached : Byte} (hform : cached &&& 0xF0 = psgAttByte c 0) (a : BitVec 4)
    {s : State} (h : CoreInv s) : CoreInv (psgAttWrite c cached a s) := by
  obtain ⟨hclock, hatt, hlow, hslot, hstream, hmode⟩ := h
  have hatt' : PsgAttInv (psgAttWrite c cached a s) := by
    rw [psgAttInv_iff] at hatt ⊢
    intro d
    rw [psgAttWrite_psgAttAt]
    split
    next hd => exact hd ▸ hform
    next => exact hatt d
  exact ⟨hclock, hatt', hlow, hslot, hstream, hmode⟩

/-- Tracking an attenuation latch byte leaves a cached low byte valid (42_cmd_chip_writes.md R182). -/
theorem trackLatch_att_coreInv {v : Byte} (hatt : psgIsAtt v = true) {s : State} (h : CoreInv s) :
    CoreInv (trackLatch v s) := by
  obtain ⟨hclock, hattInv, hlow, hslot, hstream, hmode⟩ := h
  refine ⟨hclock, hattInv, fun hvalid => ?_, hslot, hstream, hmode⟩
  obtain ⟨hlatch, hfreq, -⟩ := hlow hvalid
  exact ⟨hlatch, hfreq, fun htype => by cases hatt.symm.trans htype⟩

/-- A frequency latch byte is the new cached low byte, or there is none (42_cmd_chip_writes.md R184). -/
theorem psgFreqLatch_coreInv {v : Byte} (hlatch : psgIsLatch v = true) (hfreq : psgIsAtt v = false) {s : State}
    (h : CoreInv s) : CoreInv (psgFreqLatch v (trackLatch v s)) := by
  obtain ⟨hclock, hatt, hlow, hslot, hstream, hmode⟩ := h
  refine ⟨hclock, hatt, ?_, hslot, hstream, hmode⟩
  unfold PsgLowInv
  rw [psgFreqLatch_trk]
  intro hvalid
  have htone : psgChannel v ≠ 3 := of_decide_eq_true hvalid
  simp only [if_pos htone]
  exact ⟨hlatch, hfreq, fun _ => rfl⟩

/-- The frequency fix keeps the cached byte's form (42_cmd_chip_writes.md R186). -/
theorem psgFreqData_coreInv (v : Byte) {s : State} (h : CoreInv s) : CoreInv (psgFreqData v s) := by
  cases hfix : freqFixFires v s with
  | false =>
    rw [psgFreqData_plain hfix]
    exact .of_eq rfl h
  | true =>
    rw [psgFreqData_fires hfix]
    obtain ⟨hclock, hatt, hlow, hslot, hstream, hmode⟩ := h
    refine ⟨hclock, hatt, fun hvalid => ?_, hslot, hstream, hmode⟩
    obtain ⟨hlatch, hfreq, hchannel⟩ := hlow hvalid
    obtain ⟨hlatch', hfreq', hchannel'⟩ := freqFix_form s.trk.psgLow
    exact ⟨hlatch'.trans hlatch, hfreq'.trans hfreq, fun htype => hchannel'.trans (hchannel htype)⟩

theorem psgWrite_coreInv (v : Byte) {s : State} (h : CoreInv s) : CoreInv (psgWrite v s) := by
  cases hlatch : psgIsLatch v with
  | true =>
    cases hatt : psgIsAtt v with
    | true =>
      rw [psgWrite_attLatch hlatch hatt]
      exact psgAttWrite_coreInv (psgLatch_form v hlatch hatt) _ (trackLatch_att_coreInv hatt h)
    | false =>
      rw [psgWrite_freqLatch hlatch hatt]
      exact psgFreqLatch_coreInv hlatch hatt h
  | false =>
    cases htype : s.trk.psgType with
    | true =>
      rw [psgWrite_attData hlatch htype]
      exact psgAttWrite_coreInv (psgAttByte_form _ _) _ h
    | false =>
      rw [psgWrite_freqData hlatch htype]
      exact psgFreqData_coreInv v h

/-! ### Re-baselines of the clock -/

/-- A clock set to `c`, its sample with it and an active stream's last byte at it (41_mix_engine.md R168,
60_exceptions.md R326). -/
theorem rebased_stream (a : ActiveStream) (c : U64) (h : (rebasedStream a c).active = true) :
    (rebasedStream a c).last = c ∧ (rebasedStream a c).slot = a.slot ∧ a.active = true := by
  unfold rebasedStream at h ⊢
  split
  next hactive => exact ⟨rfl, rfl, hactive⟩
  next hidle =>
    rw [if_neg hidle] at h
    exact absurd h hidle

theorem CoreInv.rebased {s t : State} {c : U64} (h : CoreInv s) (hclock : ClockInv t) (hcyc : t.clk.cyc = c)
    (hact : t.act = rebasedStream s.act c) (hcfg : t.cfg = s.cfg) (hmix : t.mix = s.mix) (htrk : t.trk = s.trk)
    (hmode : ModeInv t) : CoreInv t := by
  refine ⟨hclock, ?_, ?_, fun hactive => ?_, fun hactive => ?_, hmode⟩
  · unfold PsgAttInv
    rw [hmix]
    exact h.att
  · unfold PsgLowInv
    rw [htrk]
    exact h.low
  · rw [hact] at hactive ⊢
    obtain ⟨-, hslot, hwas⟩ := rebased_stream _ _ hactive
    rw [hslot, hcfg]
    exact h.slot hwas
  · rw [hact] at hactive ⊢
    rw [(rebased_stream _ _ hactive).1, hcyc]
    exact BitVec.le_refl c

/-- Cycle 0 is sample 0, whatever the cycles per sample. -/
theorem sample_of_cycle_zero (n : Nat) : (0 : U32) = BitVec.ofNat 32 ((0 : U64).toNat / n) := by
  change 0 = BitVec.ofNat 32 (0 / n)
  rw [Nat.zero_div]
  rfl

theorem waitSamples_coreInv (w : U32) {s : State} (h : CoreInv s) : CoreInv (waitSamples w s) := by
  by_cases hlater : w = 0 ∨ s.clk.fwSeen = true
  · rw [waitSamples_later hlater]
    exact .of_eq rfl h
  · obtain ⟨hw, hseen⟩ := not_or.1 hlater
    have hframe := waitSamples_first_frame hw (Bool.eq_false_iff.2 hseen)
    rw [hframe]
    exact h.rebased (c := 0) (sample_of_cycle_zero _) rfl rfl rfl rfl rfl h.mode

/-- Resume's product divides back to the remembered sample (60_exceptions.md R326). -/
theorem serviceResume_coreInv {s : State} (hwf : s.cfg.Wf) (h : CoreInv s) : CoreInv (serviceResume s) := by
  rw [serviceResume_frame]
  refine h.rebased (c := pausedCycles s) ?_ rfl rfl rfl rfl rfl nofun
  obtain ⟨-, -, -, -, hcps, -⟩ := id hwf
  change s.clk.paused = BitVec.ofNat 32 ((pausedCycles s).toNat / s.cfg.cps)
  rw [pausedCycles_toNat hwf, Nat.mul_div_cancel _ hcps, BitVec.ofNat_toNat, BitVec.setWidth_eq]

/-! ### Streams -/

theorem streamStop_coreInv {s : State} (h : CoreInv s) : CoreInv (streamStop s) := by
  cases hactive : s.act.active with
  | false =>
    rw [streamStop_inactive hactive]
    exact h
  | true =>
    rw [streamStop_active hactive]
    obtain ⟨hclock, hatt, hlow, -, -, hmode⟩ := h
    exact ⟨hclock, hatt, hlow, nofun, nofun, hmode⟩

/-- A started stream plays a slot of the pool from the present cycle on (44_cmd_dac_stream.md R249). -/
theorem streamStart_coreInv {s : State} (hlen : s.slots.length = s.cfg.nSlots) (h : CoreInv s) :
    CoreInv (streamStart s) := by
  cases hfind : findSlot { s with seq := s.seq + 1 } with
  | none =>
    rw [streamStart_of_findSlot_none hfind]
    exact CoreInv.of_eq (s := s) rfl h
  | some m =>
    obtain ⟨hm, -⟩ := findSlot_some hfind
    have hclk : (freeReplaced (retireSkipped { s with seq := s.seq + 1 })).clk = s.clk := by
      rw [freeReplaced_frame]
      rfl
    rw [streamStart_of_findSlot_some hfind, activateSlot_freeReplaced_frame]
    obtain ⟨hclock, hatt, hlow, -, -, hmode⟩ := h
    refine ⟨hclock, hatt, hlow, fun _ => hlen ▸ hm, fun _ => ?_, hmode⟩
    change (freeReplaced (retireSkipped { s with seq := s.seq + 1 })).clk.cyc ≤ s.clk.cyc
    rw [hclk]
    exact BitVec.le_refl _

/-- The DAC tick moves `ACT.last` only where a whole period has passed (44_cmd_dac_stream.md R252, R257). -/
theorem dacTick_coreInv {s : State} (hwf : s.cfg.Wf) (h : CoreInv s) : CoreInv (dacTick s) := by
  obtain ⟨-, hclockHz, hclockBound, -⟩ := hwf
  obtain ⟨-, heq⟩ | ⟨-, -, heq⟩ | ⟨b, rest, -, -, -, heq⟩ | ⟨b, rest, hactive, -, hdue, heq⟩ := dacTick_cases s <;>
    rw [heq]
  · exact h
  · exact .of_eq rfl h
  · exact h
  · obtain ⟨hclock, hatt, hlow, hslot, hstream, hmode⟩ := h
    rw [dacEmit_frame, dacEmit_act]
    exact ⟨hclock, hatt, hlow, fun _ => hslot hactive,
      fun _ => (last_add_period hclockBound (hstream hactive) hdue).2, hmode⟩

/-! ### Every instruction -/

theorem initial_psgAttInv : ∀ c : Fin 4, MixCaches.initial.psgAtt[c] &&& 0xF0 = psgAttByte (BitVec.ofFin c) 0 := by
  decide

theorem serviceStart_coreInv (s : State) : CoreInv (serviceStart s) :=
  ⟨sample_of_cycle_zero _, initial_psgAttInv, nofun, nofun, nofun, nofun⟩

theorem after_coreInv (i : Instr) {s : State} (hwf : s.cfg.Wf) (hlen : s.slots.length = s.cfg.nSlots)
    (h : CoreInv s) : CoreInv (after i s) := by
  cases i with
  | psgw v => exact psgWrite_coreInv v h
  | fmw0 reg val => exact .of_eq (fmWrite_frame false reg val s) h
  | fmw1 reg val => exact .of_eq (fmWrite_frame true reg val s) h
  | wait n => exact waitSamples_coreInv _ h
  | wait60 => exact waitSamples_coreInv _ h
  | wait50 => exact waitSamples_coreInv _ h
  | waits n => exact waitSamples_coreInv _ h
  | dacw n => exact waitSamples_coreInv _ (.of_eq (dacPop_frame s) h)
  | strfreq sid f => exact .of_eq (streamFreq_frame f s) h
  | strstart sid a m l => exact streamStart_coreInv hlen h
  | strfast sid b f => exact streamStart_coreInv hlen h
  | strstop sid => exact streamStop_coreInv h
  | start => exact serviceStart_coreInv s
  | resume => exact serviceResume_coreInv hwf h
  | stop =>
    obtain ⟨hclock, hatt, hlow, hslot, hstream, -⟩ := h
    exact ⟨hclock, hatt, hlow, hslot, hstream, fun _ => rfl⟩
  | endStream =>
    obtain ⟨hclock, hatt, hlow, hslot, hstream, -⟩ := h
    exact ⟨hclock, hatt, hlow, hslot, hstream, nofun⟩
  | _ =>
    obtain ⟨hclock, hatt, hlow, hslot, hstream, hmode⟩ := h
    exact ⟨hclock, hatt, hlow, hslot, hstream, hmode⟩

/-- An instruction that only consumes keeps every queue within its capacity (20_memory.md R72). -/
theorem Consumes.memory_wf {s t : State} (h : Consumes s t) (hcmdq : t.cmdq = s.cmdq) (hcfg : t.cfg = s.cfg)
    (hwf : Memory.wf s = true) : Memory.wf t = true := by
  obtain ⟨hpcmq, hlen, hslots⟩ := h
  rw [Memory.wf_iff] at hwf ⊢
  obtain ⟨hcmd, hpcm, hqueues⟩ := hwf
  rw [hcmdq, hcfg]
  refine ⟨hcmd, ?_, fun y hy => ?_⟩
  · obtain heq | ⟨b, heq⟩ := hpcmq
    · rwa [heq]
    · rw [heq, List.length_cons] at hpcm
      omega
  · obtain ⟨k, hk, rfl⟩ := List.getElem_of_mem hy
    have hk' : k < s.slots.length := hlen ▸ hk
    obtain ⟨z, hz, -, hkept⟩ := hslots k _ (List.getElem?_eq_getElem hk')
    rw [List.getElem?_eq_getElem hk, Option.some.injEq] at hz
    have hqueue : z.queue = s.slots[k].queue := by rw [hkept]
    rw [hz, hqueue]
    exact hqueues _ (List.getElem_mem hk')

/-- The configuration is kept, and under a well-formed one the register invariant. -/
def RegKept (s t : State) : Prop := t.cfg = s.cfg ∧ (s.cfg.Wf → RegInv s → RegInv t)

theorem RegKept.trans {s t u : State} (h1 : RegKept s t) (h2 : RegKept t u) : RegKept s u := by
  obtain ⟨hcfg1, hinv1⟩ := h1
  obtain ⟨hcfg2, hinv2⟩ := h2
  rw [hcfg1] at hinv2 hcfg2
  exact ⟨hcfg2, fun hw hinv => hinv2 hw (hinv1 hw hinv)⟩

theorem after_regKept (i : Instr) (s : State) : RegKept s (after i s) := by
  have hframe := after_instrFrame i s
  have hconsumes := after_consumes i s
  refine ⟨hframe.cfg, fun hwf hinv => ?_⟩
  obtain ⟨hmem, hlen, hcore⟩ := (regInv_iff s).1 hinv
  refine (regInv_iff _).2 ⟨hconsumes.memory_wf hframe.cmdq hframe.cfg hmem, ?_, after_coreInv i hwf hlen hcore⟩
  rw [hframe.cfg, hconsumes.2.1, hlen]

/-! ### Every part of a step -/

theorem fetched_regKept {n : Nat} {s : State} (henough : n ≤ s.cmdq.length) : RegKept s (fetched n s) := by
  rw [fetched_eq n s henough]
  refine ⟨rfl, fun _ hinv => ?_⟩
  obtain ⟨hmem, hlen, hcore⟩ := (regInv_iff s).1 hinv
  refine (regInv_iff _).2 ⟨?_, hlen, .of_eq rfl hcore⟩
  rw [Memory.wf_iff] at hmem ⊢
  obtain ⟨hcmd, hrest⟩ := hmem
  exact ⟨(List.length_drop ▸ Nat.sub_le _ _).trans hcmd, hrest⟩

theorem raiseError_regKept {e : ErrorKind} {s : State} (h : e = .cmdUnderrun ∨ ∃ op, e = .unknownOpcode op) :
    RegKept s (s.raiseError e) := by
  obtain rfl | ⟨op, rfl⟩ := h <;> exact ⟨rfl, fun _ hinv => hinv⟩

/-- The clock advance computes SAMPLE anew, and CYC does not run back while it fits (46_scheduler.md R282, R291). -/
theorem clockAdvance_regInv {s : State} (hfits : NoCycOverflow s) (hinv : RegInv s) : RegInv (clockAdvance s) := by
  obtain ⟨hmem, hlen, hcore⟩ := (regInv_iff s).1 hinv
  obtain ⟨-, hatt, hlow, hslot, hstream, hmode⟩ := hcore
  refine (regInv_iff _).2 ⟨hmem, hlen, rfl, hatt, hlow, hslot, fun hactive => ?_, hmode⟩
  have hcyc := addCycles_of_fits hfits
  have hlast := BitVec.le_def.1 (hstream hactive)
  exact BitVec.le_def.2 (hlast.trans (by
    change s.clk.cyc.toNat ≤ (addCycles s.clk.cyc (s.hwcc - s.clk.lastHw)).toNat
    omega))

theorem dacTick_regKept (s : State) : RegKept s (dacTick s) := by
  refine ⟨dacTick_cfg s, fun hwf hinv => ?_⟩
  obtain ⟨hmem, hlen, hcore⟩ := (regInv_iff s).1 hinv
  refine (regInv_iff _).2 ⟨Memory.wf_dacTick hmem, ?_, dacTick_coreInv hwf hcore⟩
  rw [dacTick_cfg, dacTick_slots_length, hlen]

theorem finishTick_regKept (s : State) : RegKept s (finishTick s) := by
  unfold finishTick
  split
  · exact dacTick_regKept s
  · exact ⟨rfl, fun _ hinv => hinv⟩

theorem commandPart_regKept {c u : State} (h : CommandPart c u) : RegKept c u := by
  cases h with
  | notDue hdue => exact ⟨rfl, fun _ hinv => hinv⟩
  | underrun hdecode => exact raiseError_regKept (.inl rfl)
  | unknown op hdecode => exact raiseError_regKept (.inr ⟨op, rfl⟩)
  | runs i n hdue hdecode =>
    obtain ⟨-, -, -, -, henough, -⟩ := decode_ok hdecode
    exact (fetched_regKept henough).trans (after_regKept i _)

theorem Memory.wf_applyActions {as : List AgentAction} {s t : State} (h : applyActions as s = .next t)
    (hwf : Memory.wf s = true) : Memory.wf t = true := by
  induction as generalizing s with
  | nil =>
    cases h
    exact hwf
  | cons a rest ih =>
    obtain ⟨u, hu, ht⟩ := andThen_eq_next.1 h
    exact ih ht (Memory.wf_applyAction hu hwf)

theorem betweenTicks_regInv {s t : State} (h : betweenTicks s = .next t) (hinv : RegInv s) : RegInv t := by
  obtain ⟨elapsed, agenda, actions, hacts⟩ := betweenTicks_eq_next h
  obtain ⟨hmem, hlen, hcore⟩ := (regInv_iff s).1 hinv
  have hmem' := Memory.wf_applyActions hacts hmem
  have hagents := applyActions_agentsStep hacts
  have hcore' : CoreInv t := by
    rw [hagents.frame]
    exact CoreInv.of_eq (s := s) rfl hcore
  have hcfg : t.cfg = s.cfg := by
    rw [hagents.frame]
    rfl
  refine (regInv_iff t).2 ⟨hmem', ?_, hcore'⟩
  rw [hagents.length, hcfg]
  exact hlen

/-- Settles O17: the tick by its parts, with the clock advance as the one that needs the premise on CYC. -/
theorem stepKeepsRegisters : Obligations.StepKeepsRegisters := by
  unfold Obligations.StepKeepsRegisters
  intro s t hwf hfits hinv hstep
  obtain ⟨u, htick, hbetween⟩ := step_eq_next hstep
  refine betweenTicks_regInv hbetween ?_
  have hclear : RegInv (clearFault s) := hinv
  cases tickWork_of_tick htick with
  | request i hreq => exact (after_regKept i (clearFault s)).2 hwf hclear
  | idle hreq hidle => exact hclear
  | running v hreq hrun hpart =>
    have hclock := clockAdvance_regInv (s := clearFault s) hfits hclear
    exact ((commandPart_regKept hpart).trans (finishTick_regKept v)).2 hwf hclock

/-! ### Reset and setup -/

/-- Settles O19: the fixed state is evaluated. -/
theorem resetMeetsInvariants : Obligations.ResetMeetsInvariants := by
  unfold Obligations.ResetMeetsInvariants
  decide

theorem powerOn_regInv (cfg : Cfg) : RegInv (powerOn cfg) := by
  have hmem : Memory.wf (powerOn cfg) = true := by
    refine (Memory.wf_iff _).2 ⟨Nat.zero_le _, Nat.zero_le _, fun x hx => ?_⟩
    rw [List.eq_of_mem_replicate hx]
    exact Nat.zero_le _
  exact (regInv_iff _).2
    ⟨hmem, List.length_replicate, sample_of_cycle_zero _, initial_psgAttInv, nofun, nofun, nofun, nofun⟩

theorem frameLegal_of_ctrlIdle {r : RevMap} {f : Frame} (h : CtrlIdle r f.ctrl) : FrameLegal r f := by
  obtain ⟨hpsg, hfm, hwr, hic, hunused⟩ := h
  simp [FrameLegal, hpsg, hfm, hwr, hic, hunused]

theorem frameEvents_self (r : RevMap) (f : Frame) : frameEvents r f f = [] := by
  simp [frameEvents]

/-- The serializer after setup's first frame, the idle frame (70_reset_and_hazards.md R361). -/
def idleSer (rev : RevMap) : Ser :=
  { latch := { ctrl := idleCtrl rev, data := 0 }, bus := [idleFrame rev] }

theorem idleSer_inv {r : RevMap} (h : r.Wf) : SerInv r (idleSer r) := by
  refine ⟨⟨idleCtrl_idle h, rfl⟩, fun f hf => ?_⟩
  cases List.mem_singleton.1 hf
  exact frameLegal_of_ctrlIdle (idleCtrl_idle h)

/-- Settles O20: the idle frame, then ResetChips on a ready serializer; the registers are those of power-on. -/
theorem setupForEveryConfiguration : Obligations.SetupForEveryConfiguration := by
  unfold Obligations.SetupForEveryConfiguration
  intro cfg hwf
  have hinv := idleSer_inv hwf.1
  have hreset := Ser.resetChips_emits hwf.1 hinv.1
  have hevents : chipEvents cfg.rev (idleSer cfg.rev).bus = [] := by
    simp [chipEvents, idleSer, eventsFrom, frameEvents_self]
  obtain ⟨fs, hbus, hlen, -⟩ := hreset.bus
  have hser : (setup cfg true).ser = (idleSer cfg.rev).resetChips cfg := rfl
  rw [hser]
  refine ⟨?_, ?_, ?_, rfl, powerOn_regInv cfg, hreset.inv hinv⟩
  · rw [hreset.bus_length]
    rfl
  · rw [hbus]
    rfl
  · refine hreset.events.trans ?_
    rw [hevents, List.nil_append]

theorem noRequest_word : Req.none.word = 0 := by
  decide

/-- Settles O21: both columns are evaluated field by field, the second on the service of Start. -/
theorem resetTable : Obligations.ResetTable := by
  unfold Obligations.ResetTable
  refine ⟨fun cfg => ?_, fun s hreq => ⟨_, (tick_request hreq).trans (exec_eq_after _ _), ?_⟩⟩
  · exact ⟨rfl, rfl, rfl, rfl, rfl, rfl, rfl, rfl, noRequest_word, rfl, rfl,
      rfl, rfl, rfl, rfl, rfl, rfl, rfl, rfl, rfl⟩
  · exact ⟨rfl, rfl, rfl, rfl, rfl, rfl, rfl, rfl, rfl, rfl, rfl, rfl, rfl, rfl, rfl, rfl, rfl, rfl⟩

end Sys2Proof.Machine
end
